-- ==== Sys2Proof/Word.lean ====
section
/-! DEFINITION. The two value widths of the JOLT80 (spec/00_scope.md R6, R8). -/

namespace Sys2Proof

/-- An 8-bit value: a general register or a memory cell (R6). -/
abbrev Byte := BitVec 8

/-- A 16-bit value: a register pair, an address, the pc, an instruction halfword (R6). -/
abbrev Word := BitVec 16

end Sys2Proof
end

