-- ==== Sys2Proof/Syntax.lean ====
section
/-! DEFINITION. The instructions of spec/opcode_table.json, one constructor per row, and the mnemonics of each encoding
group in the order in which spec/30_encoding.md R72 to R75 list them. -/

namespace Sys2Proof

/-- A register number, r0 to r15 (spec/10_state.md R20). A register pair rXp is named by its even register X, as the
spec writes it: r4p is 4 (R21, R70). -/
abbrev Reg := Fin 16

/-- The JOLT80 instructions. `a`, `b`, `c` are the fields of the encoding, in the spec's order of operands (R80); a field that an
instruction ignores (R77) is no operand of it. The mnemonic decides whether a field is a register or a pair (R70). -/
inductive Instr
  -- Group 1: 8-bit immediate (40_group1_imm8.md)
  | addi (a : Reg) (imm : Byte)
  | adci (a : Reg) (imm : Byte)
  | addpbi (a : Reg) (imm : Byte)
  | subpbi (a : Reg) (imm : Byte)
  | cmpi (a : Reg) (imm : Byte)
  | andi (a : Reg) (imm : Byte)
  | orri (a : Reg) (imm : Byte)
  | cpyi (a : Reg) (imm : Byte)
  -- Group 2: arithmetic, logic, complement (41_group2_arith_logic.md)
  | add (a b : Reg)
  | adc (a b : Reg)
  | addpb (a b : Reg)
  | addp (a b : Reg)
  | sub (a b : Reg)
  | sbc (a b : Reg)
  | subpb (a b : Reg)
  | subp (a b : Reg)
  | cmp (a b : Reg)
  | cmpp (a b : Reg)
  | umul (a b : Reg)
  | smul (a b : Reg)
  | and (a b : Reg)
  | orr (a b : Reg)
  | xor (a b : Reg)
  | andp (a b : Reg)
  | orrp (a b : Reg)
  | xorp (a b : Reg)
  | inv (a : Reg)
  | invp (a : Reg)
  | neg (a : Reg)
  | negp (a : Reg)
  | abs (a : Reg)
  | absp (a : Reg)
  -- Group 2: shifts, copies, swap, call (42_group2_shift_copy_call.md)
  | lsl (a b : Reg)
  | lsr (a b : Reg)
  | asr (a b : Reg)
  | rol (a b : Reg)
  | ror (a b : Reg)
  | rolc (a : Reg)
  | rorc (a : Reg)
  | lslp (a b : Reg)
  | lsrp (a b : Reg)
  | asrp (a b : Reg)
  | rolp (a b : Reg)
  | rorp (a b : Reg)
  | rolcp (a : Reg)
  | rorcp (a : Reg)
  | cpy (a b : Reg)
  | cpyp (a b : Reg)
  | cpyfrf (a : Reg)
  | cpytof (a : Reg)
  | swp (a b : Reg)
  | call (a : Reg)
  -- Group 2: loads, stores, interrupt instructions (43_group2_loadstore_interrupt.md)
  | ldr (a b : Reg)
  | str (a b : Reg)
  | ldrab (a b : Reg)
  | strab (a b : Reg)
  | ldrsa (a b : Reg)
  | strsa (a b : Reg)
  | ldfab (b : Reg)
  | stfsa (b : Reg)
  | ldp (a b : Reg)
  | stp (a b : Reg)
  | ldpab (a b : Reg)
  | stpab (a b : Reg)
  | ldpsa (a b : Reg)
  | stpsa (a b : Reg)
  | eni
  | dii
  | reti
  | swpira (a : Reg)
  | cpypira (a : Reg)
  -- Group 3: indexed loads and stores (44_group3_indexed.md)
  | ldrx (a b c : Reg)
  | strx (a b c : Reg)
  | ldpx (a b c : Reg)
  | stpx (a b c : Reg)
  -- Group 4: branches (45_group4_branch.md)
  | bra (imm : Byte)
  | bnv (imm : Byte)
  | bne (imm : Byte)
  | beq (imm : Byte)
  | bcc (imm : Byte)
  | bcs (imm : Byte)
  | bls (imm : Byte)
  | bhi (imm : Byte)
  | bvc (imm : Byte)
  | bvs (imm : Byte)
  | bpl (imm : Byte)
  | bmi (imm : Byte)
  -- Group 5: 16-bit immediate (46_group5_imm16.md)
  | cpypi (a : Reg) (imm : Word)
  | calli (imm : Word)
  | ldrxi (a b : Reg) (imm : Word)
  | strxi (a b : Reg) (imm : Word)
  | ldpxi (a b : Reg) (imm : Word)
  | stpxi (a b : Reg) (imm : Word)
  -- Group 6: pair shifts by a 4-bit immediate (47_group6_shift_imm4.md)
  | lslpi (a : Reg) (imm : BitVec 4)
  | lsrpi (a : Reg) (imm : BitVec 4)
  | asrpi (a : Reg) (imm : BitVec 4)
  | rolpi (a : Reg) (imm : BitVec 4)
  | rorpi (a : Reg) (imm : BitVec 4)
  deriving DecidableEq, Repr

/-- The mnemonics of Group 1 (30_encoding.md R72). -/
inductive Op1
  | addi | adci | addpbi | subpbi | cmpi | andi | orri | cpyi
  deriving DecidableEq, Repr

/-- The mnemonics of Group 2 (30_encoding.md R73). -/
inductive Op2
  | add | adc | addpb | addp | sub | sbc | subpb | subp | cmp | cmpp | umul | smul
  | and | orr | xor | andp | orrp | xorp | inv | invp | neg | negp | abs | absp
  | lsl | lsr | asr | rol | ror | rolc | rorc | lslp | lsrp | asrp | rolp | rorp | rolcp | rorcp
  | cpy | cpyp | cpyfrf | cpytof | swp | call
  | ldr | str | ldrab | strab | ldrsa | strsa | ldfab | stfsa | ldp | stp | ldpab | stpab | ldpsa | stpsa
  | eni | dii | reti | swpira | cpypira
  deriving DecidableEq, Repr

/-- The mnemonics of Group 3 (30_encoding.md R74). -/
inductive Op3
  | ldrx | strx | ldpx | stpx
  deriving DecidableEq, Repr

/-- The mnemonics of Group 4 (30_encoding.md R74). -/
inductive Op4
  | bra | bnv | bne | beq | bcc | bcs | bls | bhi | bvc | bvs | bpl | bmi
  deriving DecidableEq, Repr

/-- The mnemonics of Group 5 (30_encoding.md R75). -/
inductive Op5
  | cpypi | calli | ldrxi | strxi | ldpxi | stpxi
  deriving DecidableEq, Repr

/-- The mnemonics of Group 6 (30_encoding.md R75). -/
inductive Op6
  | lslpi | lsrpi | asrpi | rolpi | rorpi
  deriving DecidableEq, Repr

end Sys2Proof
end

