-- ==== Sys2Proof/Config.lean ====
section
/-! DEFINITION. The parameters that spec/00_scope.md R7 and spec/10_state.md R39 leave to the implementation or the platform, as
plain data, and the free values. The values a machine starts with stand in Machine/Params.lean. -/

namespace Sys2Proof

/-- OPCODE_MAP (R7, R71): for each group, the mnemonic at each op number, `none` where the number is unallocated (R76). -/
structure OpcodeMap where
  g1 : List (Option Op1)
  g2 : List (Option Op2)
  g3 : List (Option Op3)
  g4 : List (Option Op4)
  g5 : List (Option Op5)
  g6 : List (Option Op6)
  deriving DecidableEq, Repr

/-- UNSIGNED_BRANCH_VARIANT (R7, R227, R228, conflict C1): the conditions of bls and bhi. -/
inductive UnsignedBranch
  | gloss
  | literal
  deriving DecidableEq, Repr

/-- SHIFT_COUNT_MODE (R7, R148). -/
inductive ShiftCountMode
  | full
  | masked
  deriving DecidableEq, Repr

/-- STFSA_DIRECTION (R7, R187, conflict C2). -/
inductive StfsaDirection
  | subtract
  | add
  deriving DecidableEq, Repr

/-- What a row of R31 is about: an instruction, by its mnemonic, or interrupt entry. -/
inductive FlagWriter
  | g1 (op : Op1)
  | g2 (op : Op2)
  | g3 (op : Op3)
  | g4 (op : Op4)
  | g5 (op : Op5)
  | g6 (op : Op6)
  | interruptEntry
  deriving DecidableEq, Repr

/-- The four flags by name (R27). -/
inductive FlagName
  | n
  | v
  | z
  | c
  deriving DecidableEq, Repr

/-- What happens to one flag that the source does not force (R30): it stays, takes the value computed for it, becomes 0 or 1, or is a
draw, any value (R30, U3). DESIGN CHOICE, entry 10: the form of an entry of FLAG_POLICY. -/
inductive FlagRule
  | keep
  | computed
  | cleared
  | set
  | drawn
  deriving DecidableEq, Repr

/-- What happens to each flag. -/
structure FlagRow where
  n : FlagRule
  v : FlagRule
  z : FlagRule
  c : FlagRule
  deriving DecidableEq, Repr

/-- One line of FLAG_POLICY: its instructions, and interrupt entry where it is on the line, and what they do to the flags. -/
structure FlagLine where
  writers : List FlagWriter
  row : FlagRow
  deriving DecidableEq, Repr

/-- FLAG_POLICY (R30, R31): a table of lines, the first that names an instruction holding for it. The effects the source forces (R29) do
not go through it. -/
structure FlagPolicy where
  lines : List FlagLine
  deriving DecidableEq, Repr

/-- What lies at an address (R41). -/
inductive MemKind
  | ram
  | rom
  | device
  | none
  deriving DecidableEq, Repr

/-- A range of addresses, both ends included, and what lies there (R41). -/
structure Region where
  first : Word
  last : Word
  kind : MemKind
  deriving DecidableEq, Repr

/-- MemMap (R7, R41): the first region that contains an address says what lies there, `elsewhere` where none does. -/
structure MemMap where
  regions : List Region
  elsewhere : MemKind
  deriving DecidableEq, Repr

/-- The parameters of R7 and R39. A state carries them (entry 8); no step changes them. -/
structure Config where
  opcodeMap : OpcodeMap
  branchScale : Word
  unsignedBranch : UnsignedBranch
  flagBitZ : Fin 8
  flagBitC : Fin 8
  flagBitV : Fin 8
  flagBitN : Fin 8
  flagPolicy : FlagPolicy
  shiftCountMode : ShiftCountMode
  stfsaDirection : StfsaDirection
  resetPc : Word
  intVector : Word
  memMap : MemMap
  deriving DecidableEq, Repr

/-- One access of the CPU to a device address (R41, R48): a byte read, or a byte written. -/
inductive DeviceAccess
  | read (addr : Word)
  | write (addr : Word) (v : Byte)
  deriving DecidableEq, Repr

/-- FREE VALUE (DESIGN CHOICE, entry 5): the byte a ram or rom cell holds that nothing has written since reset, one for each address and
stable (R38, R342, U13). Nothing is known of it. -/
opaque Config.unwrittenByte : Nat → Byte

/-- FREE VALUE (DESIGN CHOICE, entry 6): the byte a device returns for a read of the address, after the accesses listed, newest first
(R41, U18). Nothing is known of it. -/
opaque Config.deviceByte : List DeviceAccess → Word → Byte

/-- FREE VALUE (DESIGN CHOICE, entry 20): the value of a flag that FLAG_POLICY makes a draw (R30, U3), for the coming draw of the number
given. Nothing is known of it. -/
opaque Config.drawnFlag : Nat → FlagName → Bool

end Sys2Proof
end

