-- ==== Sys2Proof/WellFormed.lean ====
section
/-! DEFINITION. Which terms of `Instr` the spec's notation admits: a pair operand is named by its even register
(spec/10_state.md R21, spec/30_encoding.md R80). Every other operand is well formed by its type. -/

namespace Sys2Proof

/-- The operands that name a register pair (30_encoding.md R70, opcode_table.json kinds pair4 and pair3). The first field of umul and
smul names an 8-bit register, odd or even, and the pair that contains it (R130). -/
def Instr.pairOperands : Instr → List Reg
  | .addi _ _ | .adci _ _ | .cmpi _ _ | .andi _ _ | .orri _ _ | .cpyi _ _ => []
  | .addpbi a _ | .subpbi a _ => [a]
  | .add _ _ | .adc _ _ | .sub _ _ | .sbc _ _ | .cmp _ _ | .umul _ _ | .smul _ _ => []
  | .addpb a _ | .subpb a _ => [a]
  | .addp a b | .subp a b | .cmpp a b => [a, b]
  | .and _ _ | .orr _ _ | .xor _ _ | .inv _ | .neg _ | .abs _ => []
  | .andp a b | .orrp a b | .xorp a b => [a, b]
  | .invp a | .negp a | .absp a => [a]
  | .lsl _ _ | .lsr _ _ | .asr _ _ | .rol _ _ | .ror _ _ | .rolc _ | .rorc _ => []
  | .lslp a _ | .lsrp a _ | .asrp a _ | .rolp a _ | .rorp a _ | .rolcp a | .rorcp a => [a]
  | .cpy _ _ | .cpyfrf _ | .cpytof _ => []
  | .cpyp a b | .swp a b => [a, b]
  | .call a => [a]
  | .ldr _ b | .str _ b | .ldrab _ b | .strab _ b | .ldrsa _ b | .strsa _ b | .ldfab b | .stfsa b => [b]
  | .ldp a b | .stp a b | .ldpab a b | .stpab a b | .ldpsa a b | .stpsa a b => [a, b]
  | .eni | .dii | .reti => []
  | .swpira a | .cpypira a => [a]
  | .ldrx _ b c | .strx _ b c => [b, c]
  | .ldpx a b c | .stpx a b c => [a, b, c]
  | .bra _ | .bnv _ | .bne _ | .beq _ | .bcc _ | .bcs _ | .bls _ | .bhi _ | .bvc _ | .bvs _ | .bpl _ | .bmi _ => []
  | .cpypi a _ => [a]
  | .calli _ => []
  | .ldrxi _ b _ | .strxi _ b _ => [b]
  | .ldpxi a b _ | .stpxi a b _ => [a, b]
  | .lslpi a _ | .lsrpi a _ | .asrpi a _ | .rolpi a _ | .rorpi a _ => [a]

/-- "such that X is an even number" (10_state.md R21): the register that names a pair is even. -/
def Reg.even (r : Reg) : Bool := r.val % 2 == 0

/-- Every pair operand is an even register number. -/
def Instr.wellFormed (i : Instr) : Bool := i.pairOperands.all Reg.even

end Sys2Proof
end

