-- ==== Sys2Proof/Decode.lean ====
section
/-! DEFINITION. From bytes to instructions and back: byte order, bit fields, the six groups, the opcode map and the encoder
(spec/30_encoding.md R60 to R79). -/

namespace Sys2Proof

/-! ### Bytes and bit fields -/

/-- Big-endian: the first byte is the high one (20_memory.md R43, R44). -/
def Word.ofBytes (hi lo : Byte) : Word := BitVec.ofNat 16 (hi.toNat * 256 + lo.toNat)

/-- `v[15:8]`. -/
def Word.high (w : Word) : Byte := BitVec.ofNat 8 (w.toNat / 256)

/-- `v[7:0]`. -/
def Word.low (w : Word) : Byte := BitVec.ofNat 8 w.toNat

/-- `w[lo+len-1 : lo]` (00_scope.md R8). -/
def Word.bits (w : Word) (lo len : Nat) : Nat := w.toNat / 2 ^ lo % 2 ^ len

/-- The even register of the pair that contains r: the pair a 4-bit field names, "the least significant bit of aaaa is ignored" (R70). -/
def Reg.pairName (r : Reg) : Reg := ⟨r.val / 2 * 2, by omega⟩

/-- A 4-bit register field (R70). -/
def Word.regField (w : Word) (lo : Nat) : Reg := ⟨w.bits lo 4, Nat.mod_lt _ (by decide)⟩

/-- A 3-bit pair field: value k names r(2k)p (R70, D23). -/
def Word.pairField (w : Word) (lo : Nat) : Reg :=
  ⟨w.bits lo 3 * 2, by have := Nat.mod_lt (w.toNat / 2 ^ lo) (show 2 ^ 3 > 0 by decide); simp only [Word.bits]; omega⟩

/-- `w[7:0]`, the 8-bit immediate (R69). -/
def Word.imm8Field (w : Word) : Byte := BitVec.ofNat 8 (w.bits 0 8)

/-- `w[3:0]`, the 4-bit immediate (R69). -/
def Word.imm4Field (w : Word) : BitVec 4 := BitVec.ofNat 4 (w.bits 0 4)

/-! ### The opcode map -/

/-- The default OPCODE_MAP: list order from 0 (R71 to R75, D1); the numbers left over are unallocated (R76). -/
def OpcodeMap.listOrder : OpcodeMap where
  g1 := [some .addi, some .adci, some .addpbi, some .subpbi, some .cmpi, some .andi, some .orri, some .cpyi]
  g2 :=
    [some .add, some .adc, some .addpb, some .addp, some .sub, some .sbc, some .subpb, some .subp,
     some .cmp, some .cmpp, some .umul, some .smul, some .and, some .orr, some .xor, some .andp] ++
    [some .orrp, some .xorp, some .inv, some .invp, some .neg, some .negp, some .abs, some .absp,
     some .lsl, some .lsr, some .asr, some .rol, some .ror, some .rolc, some .rorc, some .lslp] ++
    [some .lsrp, some .asrp, some .rolp, some .rorp, some .rolcp, some .rorcp, some .cpy, some .cpyp,
     some .cpyfrf, some .cpytof, some .swp, some .call, some .ldr, some .str, some .ldrab, some .strab] ++
    [some .ldrsa, some .strsa, some .ldfab, some .stfsa, some .ldp, some .stp, some .ldpab, some .stpab,
     some .ldpsa, some .stpsa, some .eni, some .dii, some .reti, some .swpira, some .cpypira, none]
  g3 := [some .ldrx, some .strx, some .ldpx, some .stpx]
  g4 :=
    [some .bra, some .bnv, some .bne, some .beq, some .bcc, some .bcs, some .bls, some .bhi,
     some .bvc, some .bvs, some .bpl, some .bmi, none, none, none, none]
  g5 := [some .cpypi, some .calli, some .ldrxi, some .strxi, some .ldpxi, some .stpxi, none, none]
  g6 := [some .lslpi, some .lsrpi, some .asrpi, some .rolpi, some .rorpi, none, none, none]

/-- Each group's table has one entry per value of its op field (R62), and every mnemonic stands in it exactly once. -/
def OpcodeMap.wf (m : OpcodeMap) : Bool :=
  m.g1.length == 8 && m.g2.length == 64 && m.g3.length == 4 && m.g4.length == 16 && m.g5.length == 8 && m.g6.length == 8 &&
  OpcodeMap.listOrder.g1.all (fun o => o.isNone || m.g1.count o == 1) &&
  OpcodeMap.listOrder.g2.all (fun o => o.isNone || m.g2.count o == 1) &&
  OpcodeMap.listOrder.g3.all (fun o => o.isNone || m.g3.count o == 1) &&
  OpcodeMap.listOrder.g4.all (fun o => o.isNone || m.g4.count o == 1) &&
  OpcodeMap.listOrder.g5.all (fun o => o.isNone || m.g5.count o == 1) &&
  OpcodeMap.listOrder.g6.all (fun o => o.isNone || m.g6.count o == 1)

/-! ### The first halfword -/

/-- Why bits are no instruction. -/
inductive DecodeReject
  /-- the group has no mnemonic at this op number (R76) -/
  | unallocatedOp (group op : Nat)
  /-- `w[15:10]` selects no group (R62, R76) -/
  | noGroup
  /-- fewer bytes than the instruction has (a decoder's matter: a fetch always has them) -/
  | truncated
  deriving DecidableEq, Repr

/-- What a first halfword says (R63 to R68): the group, the mnemonic and the fields. -/
inductive Head
  | g1 (op : Op1) (a : Reg) (imm : Byte)
  | g2 (op : Op2) (a b : Reg)
  | g3 (op : Op3) (a b c : Reg)
  | g4 (op : Op4) (imm : Byte)
  | g5 (op : Op5) (a b : Reg)
  | g6 (op : Op6) (a : Reg) (imm : BitVec 4)
  deriving DecidableEq, Repr

/-- The mnemonic at an op number of one group. -/
def OpcodeMap.lookup {α : Type} (group : Nat) (t : List (Option α)) (op : Nat) : Except DecodeReject α :=
  match t[op]? with
  | some (some x) => .ok x
  | _ => .error (.unallocatedOp group op)

/-- Group selection and fields of the first halfword (R62 to R68). -/
def decodeHead (m : OpcodeMap) (w : Word) : Except DecodeReject Head :=
  if w.bits 15 1 = 0 then
    (OpcodeMap.lookup 1 m.g1 (w.bits 12 3)).map (.g1 · (w.regField 8) w.imm8Field)
  else if w.bits 14 2 = 0b10 then
    (OpcodeMap.lookup 2 m.g2 (w.bits 8 6)).map (.g2 · (w.regField 4) (w.regField 0))
  else if w.bits 12 4 = 0b1100 then
    (OpcodeMap.lookup 3 m.g3 (w.bits 10 2)).map (.g3 · (w.regField 6) (w.pairField 3) (w.pairField 0))
  else if w.bits 12 4 = 0b1101 then
    (OpcodeMap.lookup 4 m.g4 (w.bits 8 4)).map (.g4 · w.imm8Field)
  else if w.bits 10 6 = 0b111000 then
    (OpcodeMap.lookup 5 m.g5 (w.bits 7 3)).map (.g5 · (w.regField 3) (w.pairField 0))
  else if w.bits 10 6 = 0b111001 then
    (OpcodeMap.lookup 6 m.g6 (w.bits 7 3)).map (.g6 · (w.pairField 4) w.imm4Field)
  else .error .noGroup

/-- Group 5 has a second halfword (R60, R79). -/
def Head.isLong : Head → Bool
  | .g5 _ _ _ => true
  | _ => false

/-- The length in bytes (R60). -/
def Head.length (h : Head) : Nat := if h.isLong then 4 else 2

/-- The instruction of Group 1. -/
def Op1.instr (op : Op1) (a : Reg) (imm : Byte) : Instr :=
  match op with
  | .addi => .addi a imm
  | .adci => .adci a imm
  | .addpbi => .addpbi a.pairName imm
  | .subpbi => .subpbi a.pairName imm
  | .cmpi => .cmpi a imm
  | .andi => .andi a imm
  | .orri => .orri a imm
  | .cpyi => .cpyi a imm

/-- The instruction of Group 2: a pair field drops its low bit (R70), an ignored field is dropped (R77). -/
def Op2.instr (op : Op2) (a b : Reg) : Instr :=
  match op with
  | .add => .add a b
  | .adc => .adc a b
  | .addpb => .addpb a.pairName b
  | .addp => .addp a.pairName b.pairName
  | .sub => .sub a b
  | .sbc => .sbc a b
  | .subpb => .subpb a.pairName b
  | .subp => .subp a.pairName b.pairName
  | .cmp => .cmp a b
  | .cmpp => .cmpp a.pairName b.pairName
  | .umul => .umul a b
  | .smul => .smul a b
  | .and => .and a b
  | .orr => .orr a b
  | .xor => .xor a b
  | .andp => .andp a.pairName b.pairName
  | .orrp => .orrp a.pairName b.pairName
  | .xorp => .xorp a.pairName b.pairName
  | .inv => .inv a
  | .invp => .invp a.pairName
  | .neg => .neg a
  | .negp => .negp a.pairName
  | .abs => .abs a
  | .absp => .absp a.pairName
  | .lsl => .lsl a b
  | .lsr => .lsr a b
  | .asr => .asr a b
  | .rol => .rol a b
  | .ror => .ror a b
  | .rolc => .rolc a
  | .rorc => .rorc a
  | .lslp => .lslp a.pairName b
  | .lsrp => .lsrp a.pairName b
  | .asrp => .asrp a.pairName b
  | .rolp => .rolp a.pairName b
  | .rorp => .rorp a.pairName b
  | .rolcp => .rolcp a.pairName
  | .rorcp => .rorcp a.pairName
  | .cpy => .cpy a b
  | .cpyp => .cpyp a.pairName b.pairName
  | .cpyfrf => .cpyfrf a
  | .cpytof => .cpytof a
  | .swp => .swp a.pairName b.pairName
  | .call => .call a.pairName
  | .ldr => .ldr a b.pairName
  | .str => .str a b.pairName
  | .ldrab => .ldrab a b.pairName
  | .strab => .strab a b.pairName
  | .ldrsa => .ldrsa a b.pairName
  | .strsa => .strsa a b.pairName
  | .ldfab => .ldfab b.pairName
  | .stfsa => .stfsa b.pairName
  | .ldp => .ldp a.pairName b.pairName
  | .stp => .stp a.pairName b.pairName
  | .ldpab => .ldpab a.pairName b.pairName
  | .stpab => .stpab a.pairName b.pairName
  | .ldpsa => .ldpsa a.pairName b.pairName
  | .stpsa => .stpsa a.pairName b.pairName
  | .eni => .eni
  | .dii => .dii
  | .reti => .reti
  | .swpira => .swpira a.pairName
  | .cpypira => .cpypira a.pairName

/-- The instruction of Group 3. -/
def Op3.instr (op : Op3) (a b c : Reg) : Instr :=
  match op with
  | .ldrx => .ldrx a b c
  | .strx => .strx a b c
  | .ldpx => .ldpx a.pairName b c
  | .stpx => .stpx a.pairName b c

/-- The instruction of Group 4. -/
def Op4.instr (op : Op4) (imm : Byte) : Instr :=
  match op with
  | .bra => .bra imm
  | .bnv => .bnv imm
  | .bne => .bne imm
  | .beq => .beq imm
  | .bcc => .bcc imm
  | .bcs => .bcs imm
  | .bls => .bls imm
  | .bhi => .bhi imm
  | .bvc => .bvc imm
  | .bvs => .bvs imm
  | .bpl => .bpl imm
  | .bmi => .bmi imm

/-- The instruction of Group 5, with its second halfword (R67). -/
def Op5.instr (op : Op5) (a b : Reg) (imm : Word) : Instr :=
  match op with
  | .cpypi => .cpypi a.pairName imm
  | .calli => .calli imm
  | .ldrxi => .ldrxi a b imm
  | .strxi => .strxi a b imm
  | .ldpxi => .ldpxi a.pairName b imm
  | .stpxi => .stpxi a.pairName b imm

/-- The instruction of Group 6. -/
def Op6.instr (op : Op6) (a : Reg) (imm : BitVec 4) : Instr :=
  match op with
  | .lslpi => .lslpi a imm
  | .lsrpi => .lsrpi a imm
  | .asrpi => .asrpi a imm
  | .rolpi => .rolpi a imm
  | .rorpi => .rorpi a imm

/-- The instruction, given the second halfword (which only Group 5 looks at). -/
def Head.instr (h : Head) (imm16 : Word) : Instr :=
  match h with
  | .g1 op a imm => op.instr a imm
  | .g2 op a b => op.instr a b
  | .g3 op a b c => op.instr a b c
  | .g4 op imm => op.instr imm
  | .g5 op a b => op.instr a b imm16
  | .g6 op a imm => op.instr a imm

/-- The first instruction of a list of bytes and the bytes after it (R61, R79). The first halfword is judged before the second is
looked for (10_state.md R24). -/
def decode (m : OpcodeMap) : List Byte → Except DecodeReject (Instr × List Byte)
  | b0 :: b1 :: rest =>
    match decodeHead m (Word.ofBytes b0 b1) with
    | .error e => .error e
    | .ok h =>
      if h.isLong then
        match rest with
        | b2 :: b3 :: rest' => .ok (h.instr (Word.ofBytes b2 b3), rest')
        | _ => .error .truncated
      else .ok (h.instr 0, rest)
  | _ => .error .truncated

/-! ### The encoder -/

/-- The first halfword's contents: an ignored field is written 0 (R77). -/
def Instr.head : Instr → Head
  | .addi a imm => .g1 .addi a imm
  | .adci a imm => .g1 .adci a imm
  | .addpbi a imm => .g1 .addpbi a imm
  | .subpbi a imm => .g1 .subpbi a imm
  | .cmpi a imm => .g1 .cmpi a imm
  | .andi a imm => .g1 .andi a imm
  | .orri a imm => .g1 .orri a imm
  | .cpyi a imm => .g1 .cpyi a imm
  | .add a b => .g2 .add a b
  | .adc a b => .g2 .adc a b
  | .addpb a b => .g2 .addpb a b
  | .addp a b => .g2 .addp a b
  | .sub a b => .g2 .sub a b
  | .sbc a b => .g2 .sbc a b
  | .subpb a b => .g2 .subpb a b
  | .subp a b => .g2 .subp a b
  | .cmp a b => .g2 .cmp a b
  | .cmpp a b => .g2 .cmpp a b
  | .umul a b => .g2 .umul a b
  | .smul a b => .g2 .smul a b
  | .and a b => .g2 .and a b
  | .orr a b => .g2 .orr a b
  | .xor a b => .g2 .xor a b
  | .andp a b => .g2 .andp a b
  | .orrp a b => .g2 .orrp a b
  | .xorp a b => .g2 .xorp a b
  | .inv a => .g2 .inv a 0
  | .invp a => .g2 .invp a 0
  | .neg a => .g2 .neg a 0
  | .negp a => .g2 .negp a 0
  | .abs a => .g2 .abs a 0
  | .absp a => .g2 .absp a 0
  | .lsl a b => .g2 .lsl a b
  | .lsr a b => .g2 .lsr a b
  | .asr a b => .g2 .asr a b
  | .rol a b => .g2 .rol a b
  | .ror a b => .g2 .ror a b
  | .rolc a => .g2 .rolc a 0
  | .rorc a => .g2 .rorc a 0
  | .lslp a b => .g2 .lslp a b
  | .lsrp a b => .g2 .lsrp a b
  | .asrp a b => .g2 .asrp a b
  | .rolp a b => .g2 .rolp a b
  | .rorp a b => .g2 .rorp a b
  | .rolcp a => .g2 .rolcp a 0
  | .rorcp a => .g2 .rorcp a 0
  | .cpy a b => .g2 .cpy a b
  | .cpyp a b => .g2 .cpyp a b
  | .cpyfrf a => .g2 .cpyfrf a 0
  | .cpytof a => .g2 .cpytof a 0
  | .swp a b => .g2 .swp a b
  | .call a => .g2 .call a 0
  | .ldr a b => .g2 .ldr a b
  | .str a b => .g2 .str a b
  | .ldrab a b => .g2 .ldrab a b
  | .strab a b => .g2 .strab a b
  | .ldrsa a b => .g2 .ldrsa a b
  | .strsa a b => .g2 .strsa a b
  | .ldfab b => .g2 .ldfab 0 b
  | .stfsa b => .g2 .stfsa 0 b
  | .ldp a b => .g2 .ldp a b
  | .stp a b => .g2 .stp a b
  | .ldpab a b => .g2 .ldpab a b
  | .stpab a b => .g2 .stpab a b
  | .ldpsa a b => .g2 .ldpsa a b
  | .stpsa a b => .g2 .stpsa a b
  | .eni => .g2 .eni 0 0
  | .dii => .g2 .dii 0 0
  | .reti => .g2 .reti 0 0
  | .swpira a => .g2 .swpira a 0
  | .cpypira a => .g2 .cpypira a 0
  | .ldrx a b c => .g3 .ldrx a b c
  | .strx a b c => .g3 .strx a b c
  | .ldpx a b c => .g3 .ldpx a b c
  | .stpx a b c => .g3 .stpx a b c
  | .bra imm => .g4 .bra imm
  | .bnv imm => .g4 .bnv imm
  | .bne imm => .g4 .bne imm
  | .beq imm => .g4 .beq imm
  | .bcc imm => .g4 .bcc imm
  | .bcs imm => .g4 .bcs imm
  | .bls imm => .g4 .bls imm
  | .bhi imm => .g4 .bhi imm
  | .bvc imm => .g4 .bvc imm
  | .bvs imm => .g4 .bvs imm
  | .bpl imm => .g4 .bpl imm
  | .bmi imm => .g4 .bmi imm
  | .cpypi a _ => .g5 .cpypi a 0
  | .calli _ => .g5 .calli 0 0
  | .ldrxi a b _ => .g5 .ldrxi a b
  | .strxi a b _ => .g5 .strxi a b
  | .ldpxi a b _ => .g5 .ldpxi a b
  | .stpxi a b _ => .g5 .stpxi a b
  | .lslpi a imm => .g6 .lslpi a imm
  | .lsrpi a imm => .g6 .lsrpi a imm
  | .asrpi a imm => .g6 .asrpi a imm
  | .rolpi a imm => .g6 .rolpi a imm
  | .rorpi a imm => .g6 .rorpi a imm

/-- The second halfword of a Group 5 instruction (R67). -/
def Instr.imm16 : Instr → Option Word
  | .cpypi _ imm | .calli imm | .ldrxi _ _ imm | .strxi _ _ imm | .ldpxi _ _ imm | .stpxi _ _ imm => some imm
  | .addi _ _ | .adci _ _ | .addpbi _ _ | .subpbi _ _ | .cmpi _ _ | .andi _ _ | .orri _ _ | .cpyi _ _ => none
  | .add _ _ | .adc _ _ | .addpb _ _ | .addp _ _ | .sub _ _ | .sbc _ _ | .subpb _ _ | .subp _ _ => none
  | .cmp _ _ | .cmpp _ _ | .umul _ _ | .smul _ _ | .and _ _ | .orr _ _ | .xor _ _ => none
  | .andp _ _ | .orrp _ _ | .xorp _ _ | .inv _ | .invp _ | .neg _ | .negp _ | .abs _ | .absp _ => none
  | .lsl _ _ | .lsr _ _ | .asr _ _ | .rol _ _ | .ror _ _ | .rolc _ | .rorc _ => none
  | .lslp _ _ | .lsrp _ _ | .asrp _ _ | .rolp _ _ | .rorp _ _ | .rolcp _ | .rorcp _ => none
  | .cpy _ _ | .cpyp _ _ | .cpyfrf _ | .cpytof _ | .swp _ _ | .call _ => none
  | .ldr _ _ | .str _ _ | .ldrab _ _ | .strab _ _ | .ldrsa _ _ | .strsa _ _ | .ldfab _ | .stfsa _ => none
  | .ldp _ _ | .stp _ _ | .ldpab _ _ | .stpab _ _ | .ldpsa _ _ | .stpsa _ _ => none
  | .eni | .dii | .reti | .swpira _ | .cpypira _ => none
  | .ldrx _ _ _ | .strx _ _ _ | .ldpx _ _ _ | .stpx _ _ _ => none
  | .bra _ | .bnv _ | .bne _ | .beq _ | .bcc _ | .bcs _ | .bls _ | .bhi _ | .bvc _ | .bvs _ | .bpl _ | .bmi _ => none
  | .lslpi _ _ | .lsrpi _ _ | .asrpi _ _ | .rolpi _ _ | .rorpi _ _ => none

/-- The length in bytes (R60). -/
def Instr.length (i : Instr) : Nat := i.head.length

/-- The first halfword, by the formulas of R72 to R75. -/
def encodeHead (m : OpcodeMap) : Head → Word
  | .g1 op a imm => BitVec.ofNat 16 (0x0000 + m.g1.idxOf (some op) * 2 ^ 12 + a.val * 2 ^ 8 + imm.toNat)
  | .g2 op a b => BitVec.ofNat 16 (0x8000 + m.g2.idxOf (some op) * 2 ^ 8 + a.val * 2 ^ 4 + b.val)
  | .g3 op a b c =>
    BitVec.ofNat 16 (0xC000 + m.g3.idxOf (some op) * 2 ^ 10 + a.val * 2 ^ 6 + b.val / 2 * 2 ^ 3 + c.val / 2)
  | .g4 op imm => BitVec.ofNat 16 (0xD000 + m.g4.idxOf (some op) * 2 ^ 8 + imm.toNat)
  | .g5 op a b => BitVec.ofNat 16 (0xE000 + m.g5.idxOf (some op) * 2 ^ 7 + a.val * 2 ^ 3 + b.val / 2)
  | .g6 op a imm => BitVec.ofNat 16 (0xE400 + m.g6.idxOf (some op) * 2 ^ 7 + a.val / 2 * 2 ^ 4 + imm.toNat)

/-- The halfwords of an instruction, the first one first. -/
def encodeWords (m : OpcodeMap) (i : Instr) : List Word := encodeHead m i.head :: i.imm16.toList

/-- The bytes of an instruction in memory order (R61). -/
def encode (m : OpcodeMap) (i : Instr) : List Byte := (encodeWords m i).flatMap fun w => [w.high, w.low]

/-- The four bytes that hold an instruction whose bits are w, numbered as opcode_table.json numbers them: the first halfword is
`w[15:0]`, the second `w[31:16]`, every bit from nbits on is 0, each halfword big-endian (R61). -/
def tableBytes (nbits w : Nat) : List Byte :=
  let v := w % 2 ^ nbits
  let first : Word := BitVec.ofNat 16 v
  let second : Word := BitVec.ofNat 16 (v / 2 ^ 16)
  [first.high, first.low, second.high, second.low]

/-- The instruction the decoder reads from those bytes, under the default opcode map. -/
def decodeTableWord (nbits w : Nat) : Option Instr :=
  match decode OpcodeMap.listOrder (tableBytes nbits w) with
  | .ok (i, _) => some i
  | .error _ => none

end Sys2Proof
end

