-- ==== Sys2Proof/Machine/Params.lean ====
section
/-! DEFINITION. The parameter values a machine starts with: the defaults of spec/00_scope.md R7 and, where R7 says OPEN, the values
of the spec's examples. -/

namespace Sys2Proof

/-- R31 "adder": all four flags. -/
def FlagRow.adder : FlagRow := ⟨.computed, .computed, .computed, .computed⟩

/-- R31 "nz": N and Z from the result, V and C unchanged. -/
def FlagRow.nz : FlagRow := ⟨.computed, .keep, .computed, .keep⟩

/-- R31 "-": no flag. -/
def FlagRow.unchanged : FlagRow := ⟨.keep, .keep, .keep, .keep⟩

/-- R31 "C <- the bit rotated out; nz": C, N and Z, V unchanged. -/
def FlagRow.rotate : FlagRow := ⟨.computed, .keep, .computed, .computed⟩

/-- What FLAG_POLICY says of an instruction or of interrupt entry; no flag is written where it says nothing. -/
def FlagPolicy.row (p : FlagPolicy) (w : FlagWriter) : FlagRow :=
  match p.lines.find? fun l => l.writers.contains w with
  | some l => l.row
  | none => .unchanged

/-- The default FLAG_POLICY: the table of R31 (D13), line by line and in its order. cpytof and ldfab write the flags by themselves
(forced, R29 item 4), so they have no line. -/
def FlagPolicy.default : FlagPolicy where
  lines :=
    [⟨[.g2 .cmp, .g1 .cmpi], .adder⟩,
     ⟨[.g2 .cmpp], .adder⟩,
     ⟨[.g2 .add, .g2 .adc, .g1 .addi, .g1 .adci, .g2 .sub, .g2 .sbc, .g2 .neg], .adder⟩,
     ⟨[.g2 .addp, .g2 .subp, .g2 .addpb, .g2 .subpb, .g1 .addpbi, .g1 .subpbi, .g2 .negp], .adder⟩,
     ⟨[.g2 .and, .g2 .orr, .g2 .xor, .g1 .andi, .g1 .orri, .g2 .inv, .g2 .abs], .nz⟩,
     ⟨[.g2 .andp, .g2 .orrp, .g2 .xorp, .g2 .invp, .g2 .absp], .nz⟩,
     ⟨[.g2 .umul, .g2 .smul], .nz⟩,
     ⟨[.g2 .lsl, .g2 .lsr, .g2 .asr, .g2 .rol, .g2 .ror], .nz⟩,
     ⟨[.g2 .lslp, .g2 .lsrp, .g2 .asrp, .g2 .rolp, .g2 .rorp, .g6 .lslpi, .g6 .lsrpi, .g6 .asrpi, .g6 .rolpi, .g6 .rorpi], .nz⟩,
     ⟨[.g2 .rolc, .g2 .rorc], .rotate⟩,
     ⟨[.g2 .rolcp, .g2 .rorcp], .rotate⟩,
     ⟨[.g1 .cpyi, .g2 .cpy, .g2 .cpyp, .g5 .cpypi, .g2 .cpyfrf, .g2 .swp, .g2 .call, .g5 .calli], .unchanged⟩,
     ⟨[.g2 .ldr, .g2 .str, .g2 .ldrab, .g2 .strab, .g2 .ldrsa, .g2 .strsa, .g2 .stfsa, .g2 .ldp, .g2 .stp, .g2 .ldpab, .g2 .stpab,
       .g2 .ldpsa, .g2 .stpsa, .g3 .ldrx, .g3 .strx, .g3 .ldpx, .g3 .stpx, .g5 .ldrxi, .g5 .strxi, .g5 .ldpxi, .g5 .stpxi], .unchanged⟩,
     ⟨[.g2 .eni, .g2 .dii, .g2 .reti, .g2 .swpira, .g2 .cpypira], .unchanged⟩,
     ⟨[.g4 .bra, .g4 .bnv, .g4 .bne, .g4 .beq, .g4 .bcc, .g4 .bcs, .g4 .bls, .g4 .bhi, .g4 .bvc, .g4 .bvs, .g4 .bpl,
       .g4 .bmi], .unchanged⟩,
     ⟨[.interruptEntry], .unchanged⟩]

/-- RAM at every address, as the spec's examples assume (R41). DESIGN CHOICE, entry 4: MemMap is OPEN. -/
def MemMap.allRam : MemMap := ⟨[], .ram⟩

/-- What lies at an address (R41). -/
def MemMap.kindAt (m : MemMap) (a : Word) : MemKind :=
  match m.regions.find? fun r => decide (r.first ≤ a) && decide (a ≤ r.last) with
  | some r => r.kind
  | none => m.elsewhere

/-- The parameters at `State.reset`. RESET_PC and INT_VECTOR are OPEN: DESIGN CHOICE, entries 2 and 3 (the examples' values). -/
def Config.default : Config where
  opcodeMap := .listOrder
  branchScale := 1
  unsignedBranch := .gloss
  flagBitZ := 0
  flagBitC := 1
  flagBitV := 2
  flagBitN := 3
  flagPolicy := .default
  shiftCountMode := .full
  stfsaDirection := .subtract
  resetPc := 0x0100
  intVector := 0x0008
  memMap := .allRam

/-- The four flags stand at four different bits of the flags byte (R28). -/
def Config.flagBitsDistinct (c : Config) : Bool := [c.flagBitZ, c.flagBitC, c.flagBitV, c.flagBitN].Nodup

/-- The parameter values the spec admits: an opcode map that numbers every mnemonic once (R71), distinct flag bits (R28). -/
def Config.wf (c : Config) : Bool := c.opcodeMap.wf && c.flagBitsDistinct

end Sys2Proof
end

