-- ==== Sys2Proof/Machine/State.lean ====
section
/-! DEFINITION. The state of the JOLT80 (spec/10_state.md), the reasons a step can stop, and the state after reset. -/

namespace Sys2Proof.Machine

/-- Reasons for a fault: none. The hardware raises no exception of any kind (60_exceptions.md R300), so no instruction raises one;
safe, because nothing answers with it. -/
inductive Fault
  deriving DecidableEq, Repr

/-- Why a step has no successor state. -/
inductive Refusal
  /-- Raised by the arm of an instruction that has no meaning yet; safe. No arm of this model answers with it. -/
  | notModelled (mnemonic : String)
  /-- Raised by the fetch of a first halfword that selects no listed instruction (30_encoding.md R76, D20): "the step has no successor
  state". Safe: it errs toward unprovable. -/
  | unallocated (w : Word)
  /-- Raised by a fetch, load or store at an address that the memory map gives to nothing (20_memory.md R42, D34). Safe: it errs
  toward unprovable. -/
  | unmapped (addr : Word)
  deriving DecidableEq, Repr

/-- The four processor flags (R27). -/
structure Flags where
  n : Bool
  v : Bool
  z : Bool
  c : Bool
  deriving DecidableEq, Repr

/-- Memory (R36, R40): the bytes written since reset or loaded by the platform, as (address, byte) pairs with strictly rising
addresses. An address that is not listed has no value. -/
abbrev Memory := List Host.Cell

/-- The state. The pc, lr and sp and all register pairs are views of `regs` (R21, R22, R23). `irqs`, `devLog`, `draw` and
`cfg` are the model's own: the environment's input (R37, entry 7), the record of device accesses (R41, entry 6), the number of the coming
draw (R30, entry 20) and the parameters (R39, entry 8). -/
structure State where
  /-- r0 to r15 (R20); r14 is the high byte of the pc and r15 the low one (R23) -/
  regs : Vector Byte 16
  /-- N, V, Z, C (R27) -/
  flags : Flags
  /-- interrupt enable (R32) -/
  ie : Bool
  /-- interrupt return address (R33) -/
  ira : Word
  /-- memory (R36) -/
  mem : Memory
  /-- the levels of `irq` at the coming boundaries, soonest first; low after the last one (R37, R305) -/
  irqs : List Bool
  /-- the accesses made to devices, newest first (R41, R48) -/
  devLog : List DeviceAccess
  /-- the number of the coming draw of flags; every step has its own (R30, U3) -/
  draw : Nat
  /-- the parameters of R39, which no step changes -/
  cfg : Config
  deriving DecidableEq, Repr

/-- Reset under given parameters (R38, R340): pc = RESET_PC, ie = 0. What the spec leaves without a value is zero here (DESIGN CHOICE,
entry 1); memory lists nothing; no interrupt is requested (entry 7); no device was accessed; the draws
are numbered from 0 (DESIGN CHOICE, entry 20). -/
def State.resetWith (c : Config) : State where
  regs := #v[0, 0, 0, 0, 0, 0, 0, 0, 0, 0, 0, 0, 0, 0, c.resetPc.high, c.resetPc.low]
  flags := ⟨false, false, false, false⟩
  ie := false
  ira := 0
  mem := []
  irqs := []
  devLog := []
  draw := 0
  cfg := c

/-- The machine right after reset. -/
def State.reset : State := State.resetWith Config.default

end Sys2Proof.Machine
end

