-- ==== Sys2Proof/Machine/Flags.lean ====
section
/-! DEFINITION. Flag computations: the adder, N and Z of a result, FLAG_POLICY, the flags byte (spec/00_scope.md R10, R11,
spec/10_state.md R28 to R31). -/

namespace Sys2Proof.Machine

/-- `add_w(a, b, cin)` (R11): the result and the four flags. -/
def addW {w : Nat} (a b : BitVec w) (cin : Bool) : BitVec w × Flags :=
  let t := a.toNat + b.toNat + cin.toNat
  let r := BitVec.ofNat w t
  (r, { n := r.msb, v := (~~~(a ^^^ b) &&& (a ^^^ r)).msb, z := r == 0, c := t.testBit w })

/-- `a - b` is `add_w(a, ~b, 1)` (R11, D14). -/
def subW {w : Nat} (a b : BitVec w) : BitVec w × Flags := addW a (~~~b) true

/-- `nz_w(r)` (R10): N and Z from the result; V and C stay. -/
def nzW {w : Nat} (r : BitVec w) (old : Flags) : Flags := { old with n := r.msb, z := r == 0 }

/-- One flag under FLAG_POLICY (R30). -/
def flagAfter (rule : FlagRule) (drawn computed old : Bool) : Bool :=
  match rule with
  | .keep => old
  | .computed => computed
  | .cleared => false
  | .set => true
  | .drawn => drawn

/-- The flags under a row of FLAG_POLICY, given the draws, the values computed and the flags before (R30, R31). -/
def flagsAfter (row : FlagRow) (drawn computed old : Flags) : Flags where
  n := flagAfter row.n drawn.n computed.n old.n
  v := flagAfter row.v drawn.v computed.v old.v
  z := flagAfter row.z drawn.z computed.z old.z
  c := flagAfter row.c drawn.c computed.c old.c

/-- One flag at its bit of the flags byte. -/
def flagBit (at' : Fin 8) (f : Bool) : Byte := if f then 1#8 <<< at'.val else 0#8

/-- `flags_byte()` (R10, R28): every other bit is 0. -/
def flagsByte (c : Config) (f : Flags) : Byte :=
  flagBit c.flagBitZ f.z ||| flagBit c.flagBitC f.c ||| flagBit c.flagBitV f.v ||| flagBit c.flagBitN f.n

/-- `set_flags(v)` (R10, R28): the other bits of v are ignored (D30). -/
def flagsOfByte (c : Config) (v : Byte) : Flags where
  n := v.getLsbD c.flagBitN
  v := v.getLsbD c.flagBitV
  z := v.getLsbD c.flagBitZ
  c := v.getLsbD c.flagBitC

end Sys2Proof.Machine
end

