-- ==== Sys2Proof/Machine/Ops.lean ====
section
/-! DEFINITION. The named operations over registers and memory, taking an interrupt and returning from one. -/

namespace Sys2Proof.Machine

/-- The outcome of a step. -/
abbrev Out := Host.Outcome State Fault Refusal

/-! ### Registers and pairs (spec/10_state.md R20 to R23) -/

/-- The even register of the pair that contains rX: its high byte (R21). -/
def pairHi (x : Reg) : Reg := ⟨x.val / 2 * 2, by omega⟩

/-- The odd register of the pair that contains rX: its low byte (R21). -/
def pairLo (x : Reg) : Reg := ⟨x.val / 2 * 2 + 1, by omega⟩

/-- `x[i]`. -/
def State.reg (s : State) (i : Reg) : Byte := s.regs[i]

/-- `x[i] <- v`. -/
def State.setReg (s : State) (i : Reg) (v : Byte) : State := { s with regs := s.regs.set i v }

/-- `p[k]`, the pair that contains rX: high byte in the even register (R10, R21). -/
def State.pair (s : State) (x : Reg) : Word := Word.ofBytes (s.reg (pairHi x)) (s.reg (pairLo x))

/-- `p[k] <- v`, both bytes at once (R10, R21). -/
def State.setPair (s : State) (x : Reg) (v : Word) : State := (s.setReg (pairHi x) v.high).setReg (pairLo x) v.low

/-- The pair r14p (R22). -/
abbrev pcPair : Reg := 14

/-- The pair r12p (R22). -/
abbrev lrPair : Reg := 12

/-- The program counter is the pair r14p (R23). -/
def State.pc (s : State) : Word := s.pair pcPair

/-- `pc <- t` (R10, R23). -/
def State.setPc (s : State) (t : Word) : State := s.setPair pcPair t

/-- The link register is the pair r12p (R22). -/
def State.lr (s : State) : Word := s.pair lrPair

/-- `lr <- t`. -/
def State.setLr (s : State) (t : Word) : State := s.setPair lrPair t

/-- Replace the four flags. -/
def State.setFlags (s : State) (f : Flags) : State := { s with flags := f }

/-- The draws of this step (R30, U3, entry 20). -/
def State.drawnFlags (s : State) : Flags where
  n := Config.drawnFlag s.draw .n
  v := Config.drawnFlag s.draw .v
  z := Config.drawnFlag s.draw .z
  c := Config.drawnFlag s.draw .c

/-- The flags of an instruction or of interrupt entry under FLAG_POLICY, given the values computed for them (R30, R31). -/
def State.policyFlags (s : State) (w : FlagWriter) (f : Flags) : Flags :=
  flagsAfter (s.cfg.flagPolicy.row w) s.drawnFlags f s.flags

/-- Write the flags under FLAG_POLICY (R30, R31). -/
def State.putFlags (s : State) (w : FlagWriter) (f : Flags) : State := s.setFlags (s.policyFlags w f)

/-- The flags under FLAG_POLICY where no value is computed for them: they stay, but for what the policy sets, clears or draws (R31). -/
def State.settleFlags (s : State) (w : FlagWriter) : State := s.putFlags w s.flags

/-- As `putFlags`, but C is the carry out whatever the policy (R29 item 2, R31). -/
def State.putFlagsAdd (s : State) (w : FlagWriter) (f : Flags) : State := s.setFlags { s.policyFlags w f with c := f.c }

/-- As `putFlags`, but C and Z are those of the comparison whatever the policy (R29 item 1, R31). -/
def State.putFlagsCompare (s : State) (w : FlagWriter) (f : Flags) : State :=
  s.setFlags { s.policyFlags w f with z := f.z, c := f.c }

/-! ### Memory (spec/20_memory.md) -/

/-- The byte listed at an address. An unlisted address reads as `none`: nothing has written it since reset (R38, entry 5). -/
def Memory.read? : Memory → Nat → Option Byte
  | [], _ => none
  | (b, v) :: m, a => if a = b then some v else Memory.read? m a

/-- Store a byte, keeping the addresses strictly rising. -/
def Memory.write : Memory → Nat → Byte → Memory
  | [], a, v => [(a, v)]
  | (b, u) :: m, a, v =>
    if a < b then (a, v) :: (b, u) :: m
    else if a = b then (a, v) :: m
    else (b, u) :: Memory.write m a v

/-- The canonical form: addresses strictly rising, all below 2^16. No entry equals what an unlisted address reads as, because that is
no value. -/
def Memory.wf (m : Memory) : Bool :=
  decide (m.Pairwise fun p q => p.1 < q.1) && m.all fun p => decide (p.1 < 65536)

/-- The content of a cell of ram or rom: the last byte written, else the free byte of that address (R38, U13, entry 5). -/
def State.byteAt (s : State) (a : Word) : Byte := (Memory.read? s.mem a.toNat).getD (Config.unwrittenByte a.toNat)

/-- Replace the content of a cell. -/
def State.setByte (s : State) (a : Word) (v : Byte) : State := { s with mem := Memory.write s.mem a.toNat v }

/-- What lies at an address (R41). -/
def State.kindAt (s : State) (a : Word) : MemKind := s.cfg.memMap.kindAt a

/-- Record an access to a device (R41, R48). -/
def State.logDevice (s : State) (d : DeviceAccess) : State := { s with devLog := d :: s.devLog }

/-- `MemRead(a, 1)` (R10, R41, R42): a device answers with a free byte, nothing at the address refuses. -/
def State.load8 (s : State) (a : Word) : Except Refusal (Byte × State) :=
  match s.kindAt a with
  | .ram => .ok (s.byteAt a, s)
  | .rom => .ok (s.byteAt a, s)
  | .device => .ok (Config.deviceByte s.devLog a, s.logDevice (.read a))
  | .none => .error (.unmapped a)

/-- `MemRead(a, 2)` (R10, R43, R46, R47): the byte at the lower address first, as the high byte; the second address wraps. -/
def State.load16 (s : State) (a : Word) : Except Refusal (Word × State) := do
  let (hi, s) ← s.load8 a
  let (lo, s) ← s.load8 (a + 1#16)
  .ok (Word.ofBytes hi lo, s)

/-- `MemWrite(a, 1, v)` (R10, R41, R42): a rom ignores it, a device takes it, nothing at the address refuses. -/
def State.store8 (s : State) (a : Word) (v : Byte) : Except Refusal State :=
  match s.kindAt a with
  | .ram => .ok (s.setByte a v)
  | .rom => .ok s
  | .device => .ok (s.logDevice (.write a v))
  | .none => .error (.unmapped a)

/-- `MemWrite(a, 2, v)` (R10, R43, R46, R47): the high byte at the lower address, first. -/
def State.store16 (s : State) (a : Word) (v : Word) : Except Refusal State := do
  let s ← s.store8 a v.high
  s.store8 (a + 1#16) v.low

/-- An instruction that accesses memory ends in its next state, or is refused with the access (R42). -/
def finish (r : Except Refusal State) : Out :=
  match r with
  | .ok s => .next s
  | .error e => .refused e

/-! ### Interrupts (spec/60_exceptions.md) -/

/-- `irq` at the coming boundary (R37, R305). -/
def State.irq (s : State) : Bool := s.irqs.headD false

/-- The boundary is passed: the environment supplies its next level (R37), and the coming step has draws of its own (entry 20). -/
def State.sampled (s : State) : State := { s with irqs := s.irqs.tail, draw := s.draw + 1 }

/-- An interrupt is taken at this boundary (R306). -/
def State.interruptTaken (s : State) : Bool := s.ie && s.irq

/-- Interrupt entry (R307): `ira <- pc; ie <- 0; pc <- INT_VECTOR`. Nothing else is saved or changed, but for the flags where FLAG_POLICY
says so (R31). -/
def State.takeInterrupt (s : State) : State :=
  ({ s with ira := s.pc, ie := false }.setPc s.cfg.intVector).settleFlags .interruptEntry

/-- Return from an interrupt (R310): `pc <- ira; ie <- 1`. `ira` stays; no flag is restored (D32), and none changes but where FLAG_POLICY
says so (R31). -/
def State.returnFromInterrupt (s : State) : State := { s.setPc s.ira with ie := true }.settleFlags (.g2 .reti)

end Sys2Proof.Machine
end

