-- ==== Sys2Proof/Machine/Operands.lean ====
section
/-! DEFINITION. Operand forms: effective addresses, zero extension, shift counts, and the writes of a result with its flags. -/

namespace Sys2Proof.Machine

/-- `zext_16` of an 8-bit operand (spec/40_group1_imm8.md R102, D15). -/
def zext16 (v : Byte) : Word := v.setWidth 16

/-- `sext_16` of a branch offset (spec/45_group4_branch.md R220). -/
def sext16 (v : Byte) : Word := v.signExtend 16

/-- The address of Group 3: the sum of two pairs modulo 2^16 (spec/44_group3_indexed.md R214). -/
def State.eaPairs (s : State) (b c : Reg) : Word := s.pair b + s.pair c

/-- The address of Group 5: a pair plus the immediate modulo 2^16 (spec/46_group5_imm16.md R242). -/
def State.eaImm (s : State) (b : Reg) (imm : Word) : Word := s.pair b + imm

/-- A pointer pair moved up (R46: modulo 2^16). -/
def State.pairUp (s : State) (b : Reg) (n : Word) : State := s.setPair b (s.pair b + n)

/-- A pointer pair moved down (R46: modulo 2^16). -/
def State.pairDown (s : State) (b : Reg) (n : Word) : State := s.setPair b (s.pair b - n)

/-- The count a shift uses (spec/42_group2_shift_copy_call.md R148): the whole value, or its remainder by the width. -/
def shiftCount (mode : ShiftCountMode) (w n : Nat) : Nat :=
  match mode with
  | .full => n
  | .masked => n % w

/-- `lsl_w` (R148). -/
def lslW {w : Nat} (v : BitVec w) (n : Nat) : BitVec w := v <<< n

/-- `lsr_w` (R148). -/
def lsrW {w : Nat} (v : BitVec w) (n : Nat) : BitVec w := v >>> n

/-- `asr_w` (R148): sign bits come in from the left. -/
def asrW {w : Nat} (v : BitVec w) (n : Nat) : BitVec w := v.sshiftRight n

/-- `rol_w` (R148): the count modulo the width. -/
def rolW {w : Nat} (v : BitVec w) (n : Nat) : BitVec w := v.rotateLeft n

/-- `ror_w` (R148): the count modulo the width. -/
def rorW {w : Nat} (v : BitVec w) (n : Nat) : BitVec w := v.rotateRight n

/-- The absolute value of a two's complement value; the most negative one stays (spec/41_group2_arith_logic.md R142, R143, D37). -/
def absW {w : Nat} (v : BitVec w) : BitVec w := if v.msb then 0 - v else v

/-- The count of a shift by the register rB. -/
def State.countOf (s : State) (w : Nat) (b : Reg) : Nat := shiftCount s.cfg.shiftCountMode w (s.reg b).toNat

/-- The count of a Group 6 shift (spec/47_group6_shift_imm4.md R255): always below 16, so the mode has no effect. -/
def State.countOfImm (s : State) (imm : BitVec 4) : Nat := shiftCount s.cfg.shiftCountMode 16 imm.toNat

/-- Write an 8-bit result, with N, V, Z, C under FLAG_POLICY (R31). -/
def State.putReg (s : State) (w : FlagWriter) (a : Reg) (r : Byte) (f : Flags) : State := (s.setReg a r).putFlags w f

/-- Write a 16-bit result, with N, V, Z, C under FLAG_POLICY (R31). -/
def State.putPair (s : State) (w : FlagWriter) (a : Reg) (r : Word) (f : Flags) : State := (s.setPair a r).putFlags w f

/-- Write an 8-bit value; the flags computed for it are `nz_8`. -/
def State.putRegNz (s : State) (w : FlagWriter) (a : Reg) (r : Byte) : State := s.putReg w a r (nzW r s.flags)

/-- Write a 16-bit value; the flags computed for it are `nz_16`. -/
def State.putPairNz (s : State) (w : FlagWriter) (a : Reg) (r : Word) : State := s.putPair w a r (nzW r s.flags)

/-- Write an 8-bit sum of add, adc, addi, adci, sub, sbc: C is forced (R29 item 2). -/
def State.putSum8 (s : State) (w : FlagWriter) (a : Reg) (r : Byte × Flags) : State := (s.setReg a r.1).putFlagsAdd w r.2

/-- Write a 16-bit sum: every flag by policy (R31). -/
def State.putSum16 (s : State) (w : FlagWriter) (a : Reg) (r : Word × Flags) : State := s.putPair w a r.1 r.2

/-- Write an 8-bit value rotated through the carry: C is the bit rotated out whatever the policy (R29 item 3, R31). -/
def State.putRotated8 (s : State) (w : FlagWriter) (a : Reg) (r : Byte) (out : Bool) : State :=
  (s.setReg a r).putFlagsAdd w { nzW r s.flags with c := out }

/-- Write a 16-bit value rotated through the carry: C is the bit rotated out whatever the policy (R29 item 3, R31). -/
def State.putRotated16 (s : State) (w : FlagWriter) (a : Reg) (r : Word) (out : Bool) : State :=
  (s.setPair a r).putFlagsAdd w { nzW r s.flags with c := out }

/-- Store a byte; the flags computed for it are `nz_8` (R31). -/
def State.storeReg (s : State) (w : FlagWriter) (ea : Word) (v : Byte) : Except Refusal State := do
  let s ← s.store8 ea v
  .ok (s.putFlags w (nzW v s.flags))

/-- Store a pair; the flags computed for it are `nz_16` (R31). -/
def State.storePair (s : State) (w : FlagWriter) (ea : Word) (v : Word) : Except Refusal State := do
  let s ← s.store16 ea v
  .ok (s.putFlags w (nzW v s.flags))

/-- A Group 4 branch (R220): the target is the advanced pc plus BRANCH_SCALE times the signed offset, modulo 2^16. -/
def State.branch (s : State) (op : Op4) (cond : Bool) (imm : Byte) : State :=
  (if cond then s.setPc (s.pc + s.cfg.branchScale * sext16 imm) else s).settleFlags (.g4 op)

end Sys2Proof.Machine
end

