-- ==== Sys2Proof/Machine/Arith.lean ====
section
/-! DEFINITION. Group 2 arithmetic (spec/41_group2_arith_logic.md R120 to R131, R140, R141). -/

namespace Sys2Proof.Machine

/-- add (R120): `x[A] <- add_8(x[A], x[B], 0)`. -/
def execAdd (a b : Reg) (s : State) : Out := .next (s.putSum8 (.g2 .add) a (addW (s.reg a) (s.reg b) false))

/-- adc (R121): `x[A] <- add_8(x[A], x[B], C)`. -/
def execAdc (a b : Reg) (s : State) : Out := .next (s.putSum8 (.g2 .adc) a (addW (s.reg a) (s.reg b) s.flags.c))

/-- addpb (R122): `p[Ap] <- add_16(p[Ap], zext_16(x[B]), 0)`. -/
def execAddpb (a b : Reg) (s : State) : Out := .next (s.putSum16 (.g2 .addpb) a (addW (s.pair a) (zext16 (s.reg b)) false))

/-- addp (R123): `p[Ap] <- add_16(p[Ap], p[Bp], 0)`. -/
def execAddp (a b : Reg) (s : State) : Out := .next (s.putSum16 (.g2 .addp) a (addW (s.pair a) (s.pair b) false))

/-- sub (R124): `x[A] <- add_8(x[A], ~x[B], 1)`. -/
def execSub (a b : Reg) (s : State) : Out := .next (s.putSum8 (.g2 .sub) a (subW (s.reg a) (s.reg b)))

/-- sbc (R125): `x[A] <- add_8(x[A], ~x[B], C)`. -/
def execSbc (a b : Reg) (s : State) : Out := .next (s.putSum8 (.g2 .sbc) a (addW (s.reg a) (~~~(s.reg b)) s.flags.c))

/-- subpb (R126): `p[Ap] <- p[Ap] - x[B]`. -/
def execSubpb (a b : Reg) (s : State) : Out := .next (s.putSum16 (.g2 .subpb) a (subW (s.pair a) (zext16 (s.reg b))))

/-- subp (R127): `p[Ap] <- add_16(p[Ap], ~p[Bp], 1)`. -/
def execSubp (a b : Reg) (s : State) : Out := .next (s.putSum16 (.g2 .subp) a (subW (s.pair a) (s.pair b)))

/-- cmp (R128): the flags of `x[A] - x[B]`; no register is written. -/
def execCmp (a b : Reg) (s : State) : Out :=
  .next (s.putFlagsCompare (.g2 .cmp) (subW (s.reg a) (s.reg b)).2)

/-- cmpp (R129): the flags of `p[Ap] - p[Bp]`; no register is written. -/
def execCmpp (a b : Reg) (s : State) : Out :=
  .next (s.putFlagsCompare (.g2 .cmpp) (subW (s.pair a) (s.pair b)).2)

/-- umul (R130): the unsigned product of rA and rB goes to the pair that contains rA. -/
def execUmul (a b : Reg) (s : State) : Out :=
  .next (s.putPairNz (.g2 .umul) a (BitVec.ofNat 16 ((s.reg a).toNat * (s.reg b).toNat)))

/-- smul (R131): the signed product of rA and rB goes to the pair that contains rA. -/
def execSmul (a b : Reg) (s : State) : Out :=
  .next (s.putPairNz (.g2 .smul) a (BitVec.ofInt 16 ((s.reg a).toInt * (s.reg b).toInt)))

/-- neg (R140): `x[A] <- add_8(0, ~x[A], 1)`; its row of R31 forces no flag. -/
def execNeg (a : Reg) (s : State) : Out :=
  .next (s.putReg (.g2 .neg) a (subW 0 (s.reg a)).1 (subW 0 (s.reg a)).2)

/-- negp (R141): `p[Ap] <- add_16(0, ~p[Ap], 1)`. -/
def execNegp (a : Reg) (s : State) : Out := .next (s.putSum16 (.g2 .negp) a (subW 0 (s.pair a)))

end Sys2Proof.Machine
end

