-- ==== Sys2Proof/Machine/Branch.lean ====
section
/-! DEFINITION. Group 4: branches (spec/45_group4_branch.md). -/

namespace Sys2Proof.Machine

/-- The condition of bls (R227, C1). -/
def blsTaken (variant : UnsignedBranch) (f : Flags) : Bool :=
  match variant with
  | .gloss => !f.c || f.z
  | .literal => (f.c && !f.z) || f.z

/-- The condition of bhi (R228, C1). -/
def bhiTaken (variant : UnsignedBranch) (f : Flags) : Bool :=
  match variant with
  | .gloss => f.c && !f.z
  | .literal => !f.c && f.z

/-- bra (R221): branch always. -/
def execBra (imm : Byte) (s : State) : Out := .next (s.branch .bra true imm)

/-- bnv (R222): branch never, a form of NOP. -/
def execBnv (imm : Byte) (s : State) : Out := .next (s.branch .bnv false imm)

/-- bne (R223): branch when Z == 0. -/
def execBne (imm : Byte) (s : State) : Out := .next (s.branch .bne (!s.flags.z) imm)

/-- beq (R224): branch when Z == 1. -/
def execBeq (imm : Byte) (s : State) : Out := .next (s.branch .beq s.flags.z imm)

/-- bcc (R225): branch when C == 0. -/
def execBcc (imm : Byte) (s : State) : Out := .next (s.branch .bcc (!s.flags.c) imm)

/-- bcs (R226): branch when C == 1. -/
def execBcs (imm : Byte) (s : State) : Out := .next (s.branch .bcs s.flags.c imm)

/-- bls (R227): branch when unsigned lower or same. -/
def execBls (imm : Byte) (s : State) : Out := .next (s.branch .bls (blsTaken s.cfg.unsignedBranch s.flags) imm)

/-- bhi (R228): branch when unsigned higher. -/
def execBhi (imm : Byte) (s : State) : Out := .next (s.branch .bhi (bhiTaken s.cfg.unsignedBranch s.flags) imm)

/-- bvc (R229): branch when V == 0. -/
def execBvc (imm : Byte) (s : State) : Out := .next (s.branch .bvc (!s.flags.v) imm)

/-- bvs (R230): branch when V == 1. -/
def execBvs (imm : Byte) (s : State) : Out := .next (s.branch .bvs s.flags.v imm)

/-- bpl (R231): branch when N == 0. -/
def execBpl (imm : Byte) (s : State) : Out := .next (s.branch .bpl (!s.flags.n) imm)

/-- bmi (R232): branch when N == 1. -/
def execBmi (imm : Byte) (s : State) : Out := .next (s.branch .bmi s.flags.n imm)

end Sys2Proof.Machine
end

