-- ==== Sys2Proof/Machine/Copy.lean ====
section
/-! DEFINITION. Group 2 copies, flags, swap and call (spec/42_group2_shift_copy_call.md R165 to R171). -/

namespace Sys2Proof.Machine

/-- cpy (R165): `x[A] <- x[B]`. -/
def execCpy (a b : Reg) (s : State) : Out := .next (s.putRegNz (.g2 .cpy) a (s.reg b))

/-- cpyp (R166): `p[Ap] <- p[Bp]`. -/
def execCpyp (a b : Reg) (s : State) : Out := .next (s.putPairNz (.g2 .cpyp) a (s.pair b))

/-- cpyfrf (R167): `x[A] <- flags_byte()`. -/
def execCpyfrf (a : Reg) (s : State) : Out := .next (s.putRegNz (.g2 .cpyfrf) a (flagsByte s.cfg s.flags))

/-- cpytof (R168): `set_flags(x[A])`. -/
def execCpytof (a : Reg) (s : State) : Out := .next (s.setFlags (flagsOfByte s.cfg (s.reg a)))

/-- swp (R170): both pairs are read, then both are written. -/
def execSwp (a b : Reg) (s : State) : Out :=
  .next (((s.setPair a (s.pair b)).setPair b (s.pair a)).putFlags (.g2 .swp) (nzW (s.pair b) s.flags))

/-- call (R171): `lr <- pc`, then `pc <- p[Ap]`, which sees the new lr. -/
def execCall (a : Reg) (s : State) : Out := .next (((s.setLr s.pc).setPc ((s.setLr s.pc).pair a)).settleFlags (.g2 .call))

end Sys2Proof.Machine
end

