-- ==== Sys2Proof/Machine/Imm16.lean ====
section
/-! DEFINITION. Group 5: four-byte instructions with a 16-bit immediate (spec/46_group5_imm16.md). -/

namespace Sys2Proof.Machine

/-- cpypi (R240): `p[Ap] <- imm16`. -/
def execCpypi (a : Reg) (imm : Word) (s : State) : Out := .next (s.putPairNz (.g5 .cpypi) a imm)

/-- calli (R241): `lr <- pc`, then `pc <- imm16`. -/
def execCalli (imm : Word) (s : State) : Out := .next (((s.setLr s.pc).setPc imm).settleFlags (.g5 .calli))

/-- ldrxi (R242): `x[A] <- MemRead(p[B] + imm16, 1)`. -/
def execLdrxi (a b : Reg) (imm : Word) (s : State) : Out :=
  finish do
    let (v, s) ← s.load8 (s.eaImm b imm)
    .ok (s.putRegNz (.g5 .ldrxi) a v)

/-- strxi (R243): `MemWrite(p[B] + imm16, 1, x[A])`. -/
def execStrxi (a b : Reg) (imm : Word) (s : State) : Out := finish (s.storeReg (.g5 .strxi) (s.eaImm b imm) (s.reg a))

/-- ldpxi (R244): `p[Ap] <- MemRead(p[B] + imm16, 2)`. -/
def execLdpxi (a b : Reg) (imm : Word) (s : State) : Out :=
  finish do
    let (v, s) ← s.load16 (s.eaImm b imm)
    .ok (s.putPairNz (.g5 .ldpxi) a v)

/-- stpxi (R245): `MemWrite(p[B] + imm16, 2, p[Ap])`. -/
def execStpxi (a b : Reg) (imm : Word) (s : State) : Out := finish (s.storePair (.g5 .stpxi) (s.eaImm b imm) (s.pair a))

end Sys2Proof.Machine
end

