-- ==== Sys2Proof/Machine/Imm8.lean ====
section
/-! DEFINITION. Group 1: instructions with an 8-bit immediate (spec/40_group1_imm8.md). -/

namespace Sys2Proof.Machine

/-- addi (R100): `x[A] <- add_8(x[A], imm8, 0)`. -/
def execAddi (a : Reg) (imm : Byte) (s : State) : Out := .next (s.putSum8 (.g1 .addi) a (addW (s.reg a) imm false))

/-- adci (R101): `x[A] <- add_8(x[A], imm8, C)`. -/
def execAdci (a : Reg) (imm : Byte) (s : State) : Out := .next (s.putSum8 (.g1 .adci) a (addW (s.reg a) imm s.flags.c))

/-- addpbi (R102): `p[Ap] <- add_16(p[Ap], zext_16(imm8), 0)`. -/
def execAddpbi (a : Reg) (imm : Byte) (s : State) : Out := .next (s.putSum16 (.g1 .addpbi) a (addW (s.pair a) (zext16 imm) false))

/-- subpbi (R103): `p[Ap] <- p[Ap] - imm8`. -/
def execSubpbi (a : Reg) (imm : Byte) (s : State) : Out := .next (s.putSum16 (.g1 .subpbi) a (subW (s.pair a) (zext16 imm)))

/-- cmpi (R104): the flags of `x[A] - imm8`; no register is written. -/
def execCmpi (a : Reg) (imm : Byte) (s : State) : Out :=
  .next (s.putFlagsCompare (.g1 .cmpi) (subW (s.reg a) imm).2)

/-- andi (R105). -/
def execAndi (a : Reg) (imm : Byte) (s : State) : Out := .next (s.putRegNz (.g1 .andi) a (s.reg a &&& imm))

/-- orri (R106). -/
def execOrri (a : Reg) (imm : Byte) (s : State) : Out := .next (s.putRegNz (.g1 .orri) a (s.reg a ||| imm))

/-- cpyi (R107): `x[A] <- imm8`. -/
def execCpyi (a : Reg) (imm : Byte) (s : State) : Out := .next (s.putRegNz (.g1 .cpyi) a imm)

end Sys2Proof.Machine
end

