-- ==== Sys2Proof/Machine/Indexed.lean ====
section
/-! DEFINITION. Group 3: indexed loads and stores (spec/44_group3_indexed.md). -/

namespace Sys2Proof.Machine

/-- ldrx (R210): `x[A] <- MemRead(p[B] + p[C], 1)`. -/
def execLdrx (a b c : Reg) (s : State) : Out :=
  finish do
    let (v, s) ← s.load8 (s.eaPairs b c)
    .ok (s.putRegNz (.g3 .ldrx) a v)

/-- strx (R211): `MemWrite(p[B] + p[C], 1, x[A])`. -/
def execStrx (a b c : Reg) (s : State) : Out := finish (s.storeReg (.g3 .strx) (s.eaPairs b c) (s.reg a))

/-- ldpx (R212): `p[Ap] <- MemRead(p[B] + p[C], 2)`. -/
def execLdpx (a b c : Reg) (s : State) : Out :=
  finish do
    let (v, s) ← s.load16 (s.eaPairs b c)
    .ok (s.putPairNz (.g3 .ldpx) a v)

/-- stpx (R213): `MemWrite(p[B] + p[C], 2, p[Ap])`. -/
def execStpx (a b c : Reg) (s : State) : Out := finish (s.storePair (.g3 .stpx) (s.eaPairs b c) (s.pair a))

end Sys2Proof.Machine
end

