-- ==== Sys2Proof/Machine/Interrupt.lean ====
section
/-! DEFINITION. Group 2 interrupt instructions (spec/43_group2_loadstore_interrupt.md R195 to R199). -/

namespace Sys2Proof.Machine

/-- eni (R195): `ie <- 1`. -/
def execEni (s : State) : Out := .next ({ s with ie := true }.settleFlags (.g2 .eni))

/-- dii (R196): `ie <- 0`. -/
def execDii (s : State) : Out := .next ({ s with ie := false }.settleFlags (.g2 .dii))

/-- reti (R197): `pc <- ira; ie <- 1`. -/
def execReti (s : State) : Out := .next s.returnFromInterrupt

/-- swpira (R198): `t <- ira; ira <- p[Ap]; p[Ap] <- t`. -/
def execSwpira (a : Reg) (s : State) : Out :=
  .next (({ s with ira := s.pair a }.setPair a s.ira).putFlags (.g2 .swpira) (nzW s.ira s.flags))

/-- cpypira (R199): `p[Ap] <- ira`. -/
def execCpypira (a : Reg) (s : State) : Out := .next (s.putPairNz (.g2 .cpypira) a s.ira)

end Sys2Proof.Machine
end

