-- ==== Sys2Proof/Machine/LoadStore.lean ====
section
/-! DEFINITION. Group 2 loads and stores (spec/43_group2_loadstore_interrupt.md R179 to R193). -/

namespace Sys2Proof.Machine

/-- ldr (R180): `x[A] <- MemRead(p[Bp], 1)`. -/
def execLdr (a b : Reg) (s : State) : Out :=
  finish do
    let (v, s) ← s.load8 (s.pair b)
    .ok (s.putRegNz (.g2 .ldr) a v)

/-- str (R181): `MemWrite(p[Bp], 1, x[A])`. -/
def execStr (a b : Reg) (s : State) : Out := finish (s.storeReg (.g2 .str) (s.pair b) (s.reg a))

/-- ldrab (R182): the pointer goes up by 1, then the byte at the new pointer is loaded. -/
def execLdrab (a b : Reg) (s : State) : Out :=
  finish do
    let s := s.pairUp b 1#16
    let (v, s) ← s.load8 (s.pair b)
    .ok (s.putRegNz (.g2 .ldrab) a v)

/-- strab (R183): the pointer goes up by 1, then rA, read after that, is stored at the new pointer. -/
def execStrab (a b : Reg) (s : State) : Out :=
  finish do
    let s := s.pairUp b 1#16
    s.storeReg (.g2 .strab) (s.pair b) (s.reg a)

/-- ldrsa (R184): the byte is loaded, then the pointer, read after that, goes down by 1. -/
def execLdrsa (a b : Reg) (s : State) : Out :=
  finish do
    let (v, s) ← s.load8 (s.pair b)
    .ok ((s.putRegNz (.g2 .ldrsa) a v).pairDown b 1#16)

/-- strsa (R185): rA is stored, then the pointer goes down by 1. -/
def execStrsa (a b : Reg) (s : State) : Out :=
  finish do
    let s ← s.storeReg (.g2 .strsa) (s.pair b) (s.reg a)
    .ok (s.pairDown b 1#16)

/-- ldfab (R186): the pointer goes up by 1, then the flags are loaded from the byte at the new pointer. -/
def execLdfab (b : Reg) (s : State) : Out :=
  finish do
    let s := s.pairUp b 1#16
    let (v, s) ← s.load8 (s.pair b)
    .ok (s.setFlags (flagsOfByte s.cfg v))

/-- stfsa (R187): the flags byte is stored, then the pointer moves by STFSA_DIRECTION (C2, D18). -/
def execStfsa (b : Reg) (s : State) : Out :=
  finish do
    let s ← s.storeReg (.g2 .stfsa) (s.pair b) (flagsByte s.cfg s.flags)
    match s.cfg.stfsaDirection with
    | .subtract => .ok (s.pairDown b 1#16)
    | .add => .ok (s.pairUp b 1#16)

/-- ldp (R188): `p[Ap] <- MemRead(p[Bp], 2)`. -/
def execLdp (a b : Reg) (s : State) : Out :=
  finish do
    let (v, s) ← s.load16 (s.pair b)
    .ok (s.putPairNz (.g2 .ldp) a v)

/-- stp (R189): `MemWrite(p[Bp], 2, p[Ap])`. -/
def execStp (a b : Reg) (s : State) : Out := finish (s.storePair (.g2 .stp) (s.pair b) (s.pair a))

/-- ldpab (R190): the pointer goes up by 2, then the pair at the new pointer is loaded. -/
def execLdpab (a b : Reg) (s : State) : Out :=
  finish do
    let s := s.pairUp b 2#16
    let (v, s) ← s.load16 (s.pair b)
    .ok (s.putPairNz (.g2 .ldpab) a v)

/-- stpab (R191): the pointer goes up by 2, then rAp, read after that, is stored at the new pointer. -/
def execStpab (a b : Reg) (s : State) : Out :=
  finish do
    let s := s.pairUp b 2#16
    s.storePair (.g2 .stpab) (s.pair b) (s.pair a)

/-- ldpsa (R192): the pair is loaded, then the pointer, read after that, goes down by 2. -/
def execLdpsa (a b : Reg) (s : State) : Out :=
  finish do
    let (v, s) ← s.load16 (s.pair b)
    .ok ((s.putPairNz (.g2 .ldpsa) a v).pairDown b 2#16)

/-- stpsa (R193): rAp is stored, then the pointer goes down by 2. -/
def execStpsa (a b : Reg) (s : State) : Out :=
  finish do
    let s ← s.storePair (.g2 .stpsa) (s.pair b) (s.pair a)
    .ok (s.pairDown b 2#16)

end Sys2Proof.Machine
end

