-- ==== Sys2Proof/Machine/Logic.lean ====
section
/-! DEFINITION. Group 2 bitwise, complement and absolute value (spec/41_group2_arith_logic.md R132 to R139, R142, R143). -/

namespace Sys2Proof.Machine

/-- and (R132). -/
def execAnd (a b : Reg) (s : State) : Out := .next (s.putRegNz (.g2 .and) a (s.reg a &&& s.reg b))

/-- orr (R133). -/
def execOrr (a b : Reg) (s : State) : Out := .next (s.putRegNz (.g2 .orr) a (s.reg a ||| s.reg b))

/-- xor (R134). -/
def execXor (a b : Reg) (s : State) : Out := .next (s.putRegNz (.g2 .xor) a (s.reg a ^^^ s.reg b))

/-- andp (R135). -/
def execAndp (a b : Reg) (s : State) : Out := .next (s.putPairNz (.g2 .andp) a (s.pair a &&& s.pair b))

/-- orrp (R136). -/
def execOrrp (a b : Reg) (s : State) : Out := .next (s.putPairNz (.g2 .orrp) a (s.pair a ||| s.pair b))

/-- xorp (R137). -/
def execXorp (a b : Reg) (s : State) : Out := .next (s.putPairNz (.g2 .xorp) a (s.pair a ^^^ s.pair b))

/-- inv (R138): one's complement. -/
def execInv (a : Reg) (s : State) : Out := .next (s.putRegNz (.g2 .inv) a (~~~(s.reg a)))

/-- invp (R139): one's complement of a pair. -/
def execInvp (a : Reg) (s : State) : Out := .next (s.putPairNz (.g2 .invp) a (~~~(s.pair a)))

/-- abs (R142): absolute value. -/
def execAbs (a : Reg) (s : State) : Out := .next (s.putRegNz (.g2 .abs) a (absW (s.reg a)))

/-- absp (R143): absolute value of a pair. -/
def execAbsp (a : Reg) (s : State) : Out := .next (s.putPairNz (.g2 .absp) a (absW (s.pair a)))

end Sys2Proof.Machine
end

