-- ==== Sys2Proof/Machine/Shift.lean ====
section
/-! DEFINITION. Group 2 shifts and rotates (spec/42_group2_shift_copy_call.md R148 to R163). -/

namespace Sys2Proof.Machine

/-- lsl (R150). -/
def execLsl (a b : Reg) (s : State) : Out :=
  .next (s.putRegNz (.g2 .lsl) a (lslW (s.reg a) (s.countOf 8 b)))

/-- lsr (R151). -/
def execLsr (a b : Reg) (s : State) : Out :=
  .next (s.putRegNz (.g2 .lsr) a (lsrW (s.reg a) (s.countOf 8 b)))

/-- asr (R152). -/
def execAsr (a b : Reg) (s : State) : Out :=
  .next (s.putRegNz (.g2 .asr) a (asrW (s.reg a) (s.countOf 8 b)))

/-- rol (R153). -/
def execRol (a b : Reg) (s : State) : Out :=
  .next (s.putRegNz (.g2 .rol) a (rolW (s.reg a) (s.countOf 8 b)))

/-- ror (R154). -/
def execRor (a b : Reg) (s : State) : Out :=
  .next (s.putRegNz (.g2 .ror) a (rorW (s.reg a) (s.countOf 8 b)))

/-- rolc (R155): the 9-bit value C ++ rA rotated left by one bit. -/
def execRolc (a : Reg) (s : State) : Out :=
  let r : Byte := (s.reg a <<< 1) ||| (BitVec.ofBool s.flags.c).setWidth 8
  .next (s.putRotated8 (.g2 .rolc) a r (s.reg a).msb)

/-- rorc (R156): the 9-bit value C ++ rA rotated right by one bit. -/
def execRorc (a : Reg) (s : State) : Out :=
  let r : Byte := (s.reg a >>> 1) ||| ((BitVec.ofBool s.flags.c).setWidth 8 <<< 7)
  .next (s.putRotated8 (.g2 .rorc) a r ((s.reg a).getLsbD 0))

/-- lslp (R157). -/
def execLslp (a b : Reg) (s : State) : Out :=
  .next (s.putPairNz (.g2 .lslp) a (lslW (s.pair a) (s.countOf 16 b)))

/-- lsrp (R158). -/
def execLsrp (a b : Reg) (s : State) : Out :=
  .next (s.putPairNz (.g2 .lsrp) a (lsrW (s.pair a) (s.countOf 16 b)))

/-- asrp (R159). -/
def execAsrp (a b : Reg) (s : State) : Out :=
  .next (s.putPairNz (.g2 .asrp) a (asrW (s.pair a) (s.countOf 16 b)))

/-- rolp (R160). -/
def execRolp (a b : Reg) (s : State) : Out :=
  .next (s.putPairNz (.g2 .rolp) a (rolW (s.pair a) (s.countOf 16 b)))

/-- rorp (R161). -/
def execRorp (a b : Reg) (s : State) : Out :=
  .next (s.putPairNz (.g2 .rorp) a (rorW (s.pair a) (s.countOf 16 b)))

/-- rolcp (R162): the 17-bit value C ++ rAp rotated left by one bit. -/
def execRolcp (a : Reg) (s : State) : Out :=
  let r : Word := (s.pair a <<< 1) ||| (BitVec.ofBool s.flags.c).setWidth 16
  .next (s.putRotated16 (.g2 .rolcp) a r (s.pair a).msb)

/-- rorcp (R163): the 17-bit value C ++ rAp rotated right by one bit. -/
def execRorcp (a : Reg) (s : State) : Out :=
  let r : Word := (s.pair a >>> 1) ||| ((BitVec.ofBool s.flags.c).setWidth 16 <<< 15)
  .next (s.putRotated16 (.g2 .rorcp) a r ((s.pair a).getLsbD 0))

end Sys2Proof.Machine
end

