-- ==== Sys2Proof/Machine/ShiftImm.lean ====
section
/-! DEFINITION. Group 6: pair shifts by a 4-bit immediate (spec/47_group6_shift_imm4.md). -/

namespace Sys2Proof.Machine

/-- lslpi (R250). -/
def execLslpi (a : Reg) (imm : BitVec 4) (s : State) : Out :=
  .next (s.putPairNz (.g6 .lslpi) a (lslW (s.pair a) (s.countOfImm imm)))

/-- lsrpi (R251). -/
def execLsrpi (a : Reg) (imm : BitVec 4) (s : State) : Out :=
  .next (s.putPairNz (.g6 .lsrpi) a (lsrW (s.pair a) (s.countOfImm imm)))

/-- asrpi (R252). -/
def execAsrpi (a : Reg) (imm : BitVec 4) (s : State) : Out :=
  .next (s.putPairNz (.g6 .asrpi) a (asrW (s.pair a) (s.countOfImm imm)))

/-- rolpi (R253). -/
def execRolpi (a : Reg) (imm : BitVec 4) (s : State) : Out :=
  .next (s.putPairNz (.g6 .rolpi) a (rolW (s.pair a) (s.countOfImm imm)))

/-- rorpi (R254). -/
def execRorpi (a : Reg) (imm : BitVec 4) (s : State) : Out :=
  .next (s.putPairNz (.g6 .rorpi) a (rorW (s.pair a) (s.countOfImm imm)))

end Sys2Proof.Machine
end

