-- ==== Sys2Proof/Machine/Dispatch.lean ====
section
/-! DEFINITION. The meaning of each instruction: one arm per constructor of Instr. -/

namespace Sys2Proof.Machine

/-- What an instruction does to the state that the fetch has left, with the pc already advanced (10_state.md R24 step 7). -/
def exec (i : Instr) (s : State) : Host.Outcome State Fault Refusal :=
  match i with
  | .addi a imm => Sys2Proof.Machine.execAddi a imm s
  | .adci a imm => Sys2Proof.Machine.execAdci a imm s
  | .addpbi a imm => Sys2Proof.Machine.execAddpbi a imm s
  | .subpbi a imm => Sys2Proof.Machine.execSubpbi a imm s
  | .cmpi a imm => Sys2Proof.Machine.execCmpi a imm s
  | .andi a imm => Sys2Proof.Machine.execAndi a imm s
  | .orri a imm => Sys2Proof.Machine.execOrri a imm s
  | .cpyi a imm => Sys2Proof.Machine.execCpyi a imm s
  | .add a b => Sys2Proof.Machine.execAdd a b s
  | .adc a b => Sys2Proof.Machine.execAdc a b s
  | .addpb a b => Sys2Proof.Machine.execAddpb a b s
  | .addp a b => Sys2Proof.Machine.execAddp a b s
  | .sub a b => Sys2Proof.Machine.execSub a b s
  | .sbc a b => Sys2Proof.Machine.execSbc a b s
  | .subpb a b => Sys2Proof.Machine.execSubpb a b s
  | .subp a b => Sys2Proof.Machine.execSubp a b s
  | .cmp a b => Sys2Proof.Machine.execCmp a b s
  | .cmpp a b => Sys2Proof.Machine.execCmpp a b s
  | .umul a b => Sys2Proof.Machine.execUmul a b s
  | .smul a b => Sys2Proof.Machine.execSmul a b s
  | .and a b => Sys2Proof.Machine.execAnd a b s
  | .orr a b => Sys2Proof.Machine.execOrr a b s
  | .xor a b => Sys2Proof.Machine.execXor a b s
  | .andp a b => Sys2Proof.Machine.execAndp a b s
  | .orrp a b => Sys2Proof.Machine.execOrrp a b s
  | .xorp a b => Sys2Proof.Machine.execXorp a b s
  | .inv a => Sys2Proof.Machine.execInv a s
  | .invp a => Sys2Proof.Machine.execInvp a s
  | .neg a => Sys2Proof.Machine.execNeg a s
  | .negp a => Sys2Proof.Machine.execNegp a s
  | .abs a => Sys2Proof.Machine.execAbs a s
  | .absp a => Sys2Proof.Machine.execAbsp a s
  | .lsl a b => Sys2Proof.Machine.execLsl a b s
  | .lsr a b => Sys2Proof.Machine.execLsr a b s
  | .asr a b => Sys2Proof.Machine.execAsr a b s
  | .rol a b => Sys2Proof.Machine.execRol a b s
  | .ror a b => Sys2Proof.Machine.execRor a b s
  | .rolc a => Sys2Proof.Machine.execRolc a s
  | .rorc a => Sys2Proof.Machine.execRorc a s
  | .lslp a b => Sys2Proof.Machine.execLslp a b s
  | .lsrp a b => Sys2Proof.Machine.execLsrp a b s
  | .asrp a b => Sys2Proof.Machine.execAsrp a b s
  | .rolp a b => Sys2Proof.Machine.execRolp a b s
  | .rorp a b => Sys2Proof.Machine.execRorp a b s
  | .rolcp a => Sys2Proof.Machine.execRolcp a s
  | .rorcp a => Sys2Proof.Machine.execRorcp a s
  | .cpy a b => Sys2Proof.Machine.execCpy a b s
  | .cpyp a b => Sys2Proof.Machine.execCpyp a b s
  | .cpyfrf a => Sys2Proof.Machine.execCpyfrf a s
  | .cpytof a => Sys2Proof.Machine.execCpytof a s
  | .swp a b => Sys2Proof.Machine.execSwp a b s
  | .call a => Sys2Proof.Machine.execCall a s
  | .ldr a b => Sys2Proof.Machine.execLdr a b s
  | .str a b => Sys2Proof.Machine.execStr a b s
  | .ldrab a b => Sys2Proof.Machine.execLdrab a b s
  | .strab a b => Sys2Proof.Machine.execStrab a b s
  | .ldrsa a b => Sys2Proof.Machine.execLdrsa a b s
  | .strsa a b => Sys2Proof.Machine.execStrsa a b s
  | .ldfab b => Sys2Proof.Machine.execLdfab b s
  | .stfsa b => Sys2Proof.Machine.execStfsa b s
  | .ldp a b => Sys2Proof.Machine.execLdp a b s
  | .stp a b => Sys2Proof.Machine.execStp a b s
  | .ldpab a b => Sys2Proof.Machine.execLdpab a b s
  | .stpab a b => Sys2Proof.Machine.execStpab a b s
  | .ldpsa a b => Sys2Proof.Machine.execLdpsa a b s
  | .stpsa a b => Sys2Proof.Machine.execStpsa a b s
  | .eni => Sys2Proof.Machine.execEni s
  | .dii => Sys2Proof.Machine.execDii s
  | .reti => Sys2Proof.Machine.execReti s
  | .swpira a => Sys2Proof.Machine.execSwpira a s
  | .cpypira a => Sys2Proof.Machine.execCpypira a s
  | .ldrx a b c => Sys2Proof.Machine.execLdrx a b c s
  | .strx a b c => Sys2Proof.Machine.execStrx a b c s
  | .ldpx a b c => Sys2Proof.Machine.execLdpx a b c s
  | .stpx a b c => Sys2Proof.Machine.execStpx a b c s
  | .bra imm => Sys2Proof.Machine.execBra imm s
  | .bnv imm => Sys2Proof.Machine.execBnv imm s
  | .bne imm => Sys2Proof.Machine.execBne imm s
  | .beq imm => Sys2Proof.Machine.execBeq imm s
  | .bcc imm => Sys2Proof.Machine.execBcc imm s
  | .bcs imm => Sys2Proof.Machine.execBcs imm s
  | .bls imm => Sys2Proof.Machine.execBls imm s
  | .bhi imm => Sys2Proof.Machine.execBhi imm s
  | .bvc imm => Sys2Proof.Machine.execBvc imm s
  | .bvs imm => Sys2Proof.Machine.execBvs imm s
  | .bpl imm => Sys2Proof.Machine.execBpl imm s
  | .bmi imm => Sys2Proof.Machine.execBmi imm s
  | .cpypi a imm => Sys2Proof.Machine.execCpypi a imm s
  | .calli imm => Sys2Proof.Machine.execCalli imm s
  | .ldrxi a b imm => Sys2Proof.Machine.execLdrxi a b imm s
  | .strxi a b imm => Sys2Proof.Machine.execStrxi a b imm s
  | .ldpxi a b imm => Sys2Proof.Machine.execLdpxi a b imm s
  | .stpxi a b imm => Sys2Proof.Machine.execStpxi a b imm s
  | .lslpi a imm => Sys2Proof.Machine.execLslpi a imm s
  | .lsrpi a imm => Sys2Proof.Machine.execLsrpi a imm s
  | .asrpi a imm => Sys2Proof.Machine.execAsrpi a imm s
  | .rolpi a imm => Sys2Proof.Machine.execRolpi a imm s
  | .rorpi a imm => Sys2Proof.Machine.execRorpi a imm s

end Sys2Proof.Machine
end

