-- ==== Sys2Proof/Machine/Fetch.lean ====
section
/-! DEFINITION. Fetching an instruction (spec/10_state.md R24) and placing one where the next fetch finds it. -/

namespace Sys2Proof.Machine

/-- Steps 1 to 6 of R24: the first halfword is read and judged, then the second one where there is one, and the pc is advanced past the
instruction. The answer is the instruction and the state it acts on. -/
def State.fetch (s : State) : Except Refusal (Instr × State) := do
  let a0 := s.pc
  let (w, s) ← s.load16 a0
  match decodeHead s.cfg.opcodeMap w with
  | .error _ => .error (.unallocated w)
  | .ok h =>
    if h.isLong then
      let (imm, s) ← s.load16 (a0 + 2#16)
      .ok (h.instr imm, s.setPc (a0 + 4#16))
    else .ok (h.instr 0, s.setPc (a0 + 2#16))

/-- Write bytes from an address up (modulo 2^16), whatever the memory map says: a load of the platform, not a store of the CPU. -/
def State.placeBytes (s : State) (a : Word) : List Byte → State
  | [] => s
  | b :: bs => (s.setByte a b).placeBytes (a + 1#16) bs

/-- An address the CPU reads as a plain cell. -/
def State.readable (s : State) (a : Word) : Bool := s.kindAt a == .ram || s.kindAt a == .rom

/-- The four cells from an address up are plain cells: the memory map as it is where they are, else with ram there. -/
def State.mapReadable (s : State) (a : Word) : State :=
  if s.readable a && s.readable (a + 1#16) && s.readable (a + 2#16) && s.readable (a + 3#16) then s
  else
    let cells := [a, a + 1#16, a + 2#16, a + 3#16].map fun x => (⟨x, x, .ram⟩ : Region)
    { s with cfg := { s.cfg with memMap := { s.cfg.memMap with regions := cells ++ s.cfg.memMap.regions } } }

/-- No interrupt is taken at the coming boundary: the request is low there if it would be taken. -/
def State.holdInterrupt (s : State) : State := if s.interruptTaken then { s with irqs := false :: s.irqs.tail } else s

/-- The next step fetches and runs the instruction whose bits are w: its bytes stand at the pc. -/
def State.placeInstr (s : State) (nbits w : Nat) : State :=
  ((s.placeBytes s.pc (tableBytes nbits w)).mapReadable s.pc).holdInterrupt

end Sys2Proof.Machine
end

