-- ==== Sys2Proof/Machine/Step.lean ====
section
/-! DEFINITION. One step of the machine: an interrupt entry or an instruction (spec/60_exceptions.md R306). -/

namespace Sys2Proof.Machine

/-- One step (R306): the environment's `irq` is sampled; if it is taken, the entry of R307 is the whole step, else the instruction at
the pc is fetched and runs (10_state.md R24). -/
def step (s : State) : Host.Outcome State Fault Refusal :=
  if s.interruptTaken then .next s.sampled.takeInterrupt
  else
    match s.sampled.fetch with
    | .ok (i, s') => exec i s'
    | .error r => .refused r

/-- The state with an instruction stored where the next step fetches it (entry 15). -/
def State.withFetchWord (s : State) (nbits w : Nat) : State := s.placeInstr nbits w

end Sys2Proof.Machine
end

