-- ==== Sys2Proof/Safety.lean ====
section
/-! DEFINITION. The terms in which claims about the machine are stated: the invariant, frames, the premises under which an
instruction runs, and the spec's formulas over exact integers. -/

namespace Sys2Proof.Machine

/-! ### Invariant, reset, end of a run -/

/-- The invariant: memory is in canonical form. -/
def CanonicalMemory (s : State) : Prop := Memory.wf s.mem = true

/-- What reset leaves defined (70_reset_and_hazards.md R340): pc = RESET_PC and ie = 0. Everything else may hold anything. -/
def AfterReset (s : State) : Prop := s.pc = s.cfg.resetPc ∧ s.ie = false

/-- The four bytes from the pc up. -/
def State.bytesAtPc (s : State) : List Byte :=
  [s.byteAt s.pc, s.byteAt (s.pc + 1#16), s.byteAt (s.pc + 2#16), s.byteAt (s.pc + 3#16)]

/-- ram or rom lies at an address, so the CPU reads a plain cell there (20_memory.md R41). -/
def PlainCell (s : State) (a : Word) : Prop := s.kindAt a = .ram ∨ s.kindAt a = .rom

/-- Something lies at an address, so an access to it has a meaning (20_memory.md R41, R42). -/
def Mapped (s : State) (a : Word) : Prop := s.kindAt a ≠ .none

/-- The instruction at the pc, in plain cells. -/
def InstrAtPc (s : State) (i : Instr) : Prop :=
  (∃ rest, decode s.cfg.opcodeMap s.bytesAtPc = .ok (i, rest)) ∧
  ∀ k < i.length, PlainCell s (s.pc + BitVec.ofNat 16 k)

/-- The end of a run (70_reset_and_hazards.md R352): the pc addresses a `bra -2`, with BRANCH_SCALE 1, and either ie = 0 or irq stays 0. -/
def RunEnded (s : State) : Prop :=
  InstrAtPc s (.bra 0xFE) ∧ s.cfg.branchScale = 1 ∧ (s.ie = false ∨ ∀ b ∈ s.irqs, b = false)

/-- FLAG_POLICY is the default table of R31. -/
def DefaultFlags (s : State) : Prop := s.cfg.flagPolicy = FlagPolicy.default

/-! ### Frames -/

/-- Every register outside the list is unchanged. -/
def SameRegsExcept (rs : List Reg) (s t : State) : Prop := ∀ r, r ∉ rs → t.reg r = s.reg r

/-- Every byte of memory reads as before. -/
def SameMemory (s t : State) : Prop := ∀ a, t.byteAt a = s.byteAt a

/-- The interrupt state, the parameters, the environment's input and the number of the coming draw are unchanged. -/
def SameControl (s t : State) : Prop := t.ie = s.ie ∧ t.ira = s.ira ∧ t.cfg = s.cfg ∧ t.irqs = s.irqs ∧ t.draw = s.draw

/-- Nothing but the listed registers and the flags may differ. -/
def OnlyRegsAndFlags (rs : List Reg) (s t : State) : Prop :=
  SameRegsExcept rs s t ∧ SameMemory s t ∧ SameControl s t ∧ t.devLog = s.devLog

/-- Nothing but the listed registers may differ: no flag, under the default policy (R31). -/
def OnlyRegs (rs : List Reg) (s t : State) : Prop := OnlyRegsAndFlags rs s t ∧ (DefaultFlags s → t.flags = s.flags)

/-- The two registers of the pair that contains rX. -/
def pairRegs (x : Reg) : List Reg := [pairHi x, pairLo x]

/-- Two operands name the same pair. -/
def SamePair (a b : Reg) : Prop := pairHi a = pairHi b

/-! ### Loads and stores as the memory map sees them (20_memory.md R41, R47, R48)

The byte of a device is the model's free value, the record of device accesses the model's own (entry 6). -/

/-- The byte a load at a gives when the device accesses before it are `log`. -/
def State.cellRead (s : State) (log : List DeviceAccess) (a : Word) : Byte :=
  if s.kindAt a = .device then Config.deviceByte log a else s.byteAt a

/-- The record of device accesses after a load at a. -/
def State.logAfterLoad (s : State) (log : List DeviceAccess) (a : Word) : List DeviceAccess :=
  if s.kindAt a = .device then .read a :: log else log

/-- The record of device accesses after a store at a. -/
def State.logAfterStore (s : State) (log : List DeviceAccess) (a : Word) (v : Byte) : List DeviceAccess :=
  if s.kindAt a = .device then .write a v :: log else log

/-- The pair a 16-bit load at a gives: the byte at a is the high one, then the byte at a + 1 is read (R43, R47). -/
def State.cellRead16 (s : State) (a : Word) : Word :=
  Word.ofBytes (s.cellRead s.devLog a) (s.cellRead (s.logAfterLoad s.devLog a) (a + 1#16))

/-- The record of device accesses after a 16-bit load. -/
def State.logAfterLoad16 (s : State) (a : Word) : List DeviceAccess :=
  s.logAfterLoad (s.logAfterLoad s.devLog a) (a + 1#16)

/-- The record of device accesses after a 16-bit store. -/
def State.logAfterStore16 (s : State) (a v : Word) : List DeviceAccess :=
  s.logAfterStore (s.logAfterStore s.devLog a v.high) (a + 1#16) v.low

/-- A load of the listed registers happened: nothing else differs, but for the record of device accesses. -/
def Loaded (rs : List Reg) (log : List DeviceAccess) (s t : State) : Prop :=
  SameRegsExcept rs s t ∧ SameMemory s t ∧ SameControl s t ∧ t.devLog = log

/-- The byte v was stored at ea: where ram lies there the cell holds it, and every other byte reads as before; rom ignores it, and a
device takes it (R41). Of the registers only the listed ones may differ; no flag does, under the default policy (R31). -/
def Stored8 (rs : List Reg) (ea : Word) (v : Byte) (s t : State) : Prop :=
  (∀ a, t.byteAt a = if a = ea ∧ s.kindAt ea = .ram then v else s.byteAt a) ∧
  SameRegsExcept rs s t ∧ SameControl s t ∧ (DefaultFlags s → t.flags = s.flags) ∧ t.devLog = s.logAfterStore s.devLog ea v

/-- The pair v was stored at ea and ea + 1, high byte first (R43, R47); as `Stored8` for each byte. -/
def Stored16 (rs : List Reg) (ea v : Word) (s t : State) : Prop :=
  (∀ a, t.byteAt a =
    if a = ea ∧ s.kindAt ea = .ram then v.high
    else if a = ea + 1#16 ∧ s.kindAt (ea + 1#16) = .ram then v.low else s.byteAt a) ∧
  SameRegsExcept rs s t ∧ SameControl s t ∧ (DefaultFlags s → t.flags = s.flags) ∧ t.devLog = s.logAfterStore16 ea v

/-! ### The flags byte -/

/-- Each flag stands at its FLAG_BIT and every other bit is 0 (10_state.md R28). Where two flags have one bit, which R28 does not foresee,
the bit is their "or": the model's choice (entry 11). -/
def IsFlagsByte (c : Config) (f : Flags) (v : Byte) : Prop :=
  ∀ k : Fin 8, v.getLsbD k = (decide (k = c.flagBitZ) && f.z || decide (k = c.flagBitC) && f.c ||
    decide (k = c.flagBitV) && f.v || decide (k = c.flagBitN) && f.n)

/-! ### The spec's arithmetic over exact integers -/

/-- Whether an integer is no w-bit two's complement value. -/
def signedOverflow (w : Nat) (x : Int) : Bool := decide (x < -2 ^ (w - 1) ∨ 2 ^ (w - 1) ≤ x)

/-- The flags of x + y + cin with result r: sign of r, signed overflow, r = 0, unsigned carry out (00_scope.md R11). -/
def sumFlags {w : Nat} (x y : BitVec w) (cin : Bool) (r : BitVec w) : Flags where
  n := decide (r.toInt < 0)
  v := signedOverflow w (x.toInt + y.toInt + cin.toNat)
  z := decide (r.toNat = 0)
  c := decide (2 ^ w ≤ x.toNat + y.toNat + cin.toNat)

/-- The flags of x - y - borrow with result r: C is set when there is no borrow (00_scope.md R11, D14). -/
def diffFlags {w : Nat} (x y : BitVec w) (borrow : Bool) (r : BitVec w) : Flags where
  n := decide (r.toInt < 0)
  v := signedOverflow w (x.toInt - y.toInt - borrow.toNat)
  z := decide (r.toNat = 0)
  c := decide (y.toNat + borrow.toNat ≤ x.toNat)

/-- N and Z of a result, V and C as before (00_scope.md R10 `nz_w`). -/
def nzFlags {w : Nat} (r : BitVec w) (old : Flags) : Flags where
  n := decide (r.toInt < 0)
  v := old.v
  z := decide (r.toNat = 0)
  c := old.c

/-- The count a shift uses (42_group2_shift_copy_call.md R148). -/
def State.shiftAmount (s : State) (w n : Nat) : Nat :=
  if s.cfg.shiftCountMode = .masked then n % w else n

/-- R148 `lsl_w`: (v * 2^n) mod 2^w. -/
def specLsl (w v n : Nat) : Nat := v * 2 ^ n % 2 ^ w

/-- R148 `lsr_w`: floor(v / 2^n). -/
def specLsr (v n : Nat) : Nat := v / 2 ^ n

/-- R148 `asr_w`: floor(signed(v) / 2^m) with m = min(n, w-1), as a signed value. -/
def specAsr {w : Nat} (v : BitVec w) (n : Nat) : Int := v.toInt / 2 ^ min n (w - 1)

/-- R148 `rol_w`: with m = n mod w, ((v * 2^m) mod 2^w) | floor(v / 2^(w-m)). -/
def specRol (w v n : Nat) : Nat := v * 2 ^ (n % w) % 2 ^ w ||| v / 2 ^ (w - n % w)

/-- R148 `ror_w`: with m = n mod w, floor(v / 2^m) | ((v * 2^(w-m)) mod 2^w). -/
def specRor (w v n : Nat) : Nat := v / 2 ^ (n % w) ||| v * 2 ^ (w - n % w) % 2 ^ w

/-! ### What an instruction does, in one term per shape

Each says that the instruction runs (`exec` answers a next state), gives the result and the flags, and says what stays as it was.
Where FLAG_POLICY decides the flags (10_state.md R30), they are said for the default policy; what the source forces (R29) is said for
every policy. -/

/-- `x[a] <- x + y + cin` with the adder's flags; C is forced. -/
def Sum8 (i : Instr) (s : State) (a : Reg) (x y : Byte) (cin : Bool) : Prop :=
  ∃ t, exec i s = .next t ∧ (t.reg a).toNat = (x.toNat + y.toNat + cin.toNat) % 2 ^ 8 ∧
    t.flags.c = decide (2 ^ 8 ≤ x.toNat + y.toNat + cin.toNat) ∧
    (DefaultFlags s → t.flags = sumFlags x y cin (t.reg a)) ∧ OnlyRegsAndFlags [a] s t

/-- `x[a] <- x - y - borrow` with the adder's flags; C, the absence of a borrow, is forced. -/
def Diff8 (i : Instr) (s : State) (a : Reg) (x y : Byte) (borrow : Bool) : Prop :=
  ∃ t, exec i s = .next t ∧ ((t.reg a).toNat : Int) = ((x.toNat : Int) - y.toNat - borrow.toNat) % 2 ^ 8 ∧
    t.flags.c = decide (y.toNat + borrow.toNat ≤ x.toNat) ∧
    (DefaultFlags s → t.flags = diffFlags x y borrow (t.reg a)) ∧ OnlyRegsAndFlags [a] s t

/-- `p[a] <- x + y` at 16 bits with the adder's flags. -/
def Sum16 (i : Instr) (s : State) (a : Reg) (x y : Word) : Prop :=
  ∃ t, exec i s = .next t ∧ (t.pair a).toNat = (x.toNat + y.toNat) % 2 ^ 16 ∧
    (DefaultFlags s → t.flags = sumFlags x y false (t.pair a)) ∧ OnlyRegsAndFlags (pairRegs a) s t

/-- `p[a] <- x - y` at 16 bits with the adder's flags. -/
def Diff16 (i : Instr) (s : State) (a : Reg) (x y : Word) : Prop :=
  ∃ t, exec i s = .next t ∧ ((t.pair a).toNat : Int) = ((x.toNat : Int) - y.toNat) % 2 ^ 16 ∧
    (DefaultFlags s → t.flags = diffFlags x y false (t.pair a)) ∧ OnlyRegsAndFlags (pairRegs a) s t

/-- The flags of `x - y`; nothing else changes. C and Z are forced. -/
def Compares {w : Nat} (i : Instr) (s : State) (x y : BitVec w) : Prop :=
  ∃ t, exec i s = .next t ∧ t.flags.c = decide (y.toNat ≤ x.toNat) ∧ t.flags.z = decide (x = y) ∧
    (DefaultFlags s → t.flags = diffFlags x y false (x - y)) ∧ OnlyRegsAndFlags [] s t

/-- An 8-bit result that satisfies P goes to rA, N and Z from it, V and C as before. -/
def Computes8 (i : Instr) (s : State) (a : Reg) (P : Byte → Prop) : Prop :=
  ∃ t, exec i s = .next t ∧ P (t.reg a) ∧ (DefaultFlags s → t.flags = nzFlags (t.reg a) s.flags) ∧ OnlyRegsAndFlags [a] s t

/-- A 16-bit result that satisfies P goes to the pair of rA, N and Z from it, V and C as before. -/
def Computes16 (i : Instr) (s : State) (a : Reg) (P : Word → Prop) : Prop :=
  ∃ t, exec i s = .next t ∧ P (t.pair a) ∧ (DefaultFlags s → t.flags = nzFlags (t.pair a) s.flags) ∧
    OnlyRegsAndFlags (pairRegs a) s t

/-- A value is moved to rA; no flag changes. -/
def Moves8 (i : Instr) (s : State) (a : Reg) (P : Byte → Prop) : Prop :=
  ∃ t, exec i s = .next t ∧ P (t.reg a) ∧ (DefaultFlags s → t.flags = s.flags) ∧ OnlyRegsAndFlags [a] s t

/-- A value is moved to the pair of rA; no flag changes. -/
def Moves16 (i : Instr) (s : State) (a : Reg) (v : Word) : Prop :=
  ∃ t, exec i s = .next t ∧ t.pair a = v ∧ (DefaultFlags s → t.flags = s.flags) ∧ OnlyRegsAndFlags (pairRegs a) s t

/-- The byte at ea is loaded into rA; no flag changes. -/
def Loads8 (i : Instr) (s : State) (a : Reg) (ea : Word) : Prop :=
  Mapped s ea → ∃ t, exec i s = .next t ∧ t.reg a = s.cellRead s.devLog ea ∧ (DefaultFlags s → t.flags = s.flags) ∧
    Loaded [a] (s.logAfterLoad s.devLog ea) s t

/-- The two bytes at ea are loaded into the pair of rA; no flag changes. -/
def Loads16 (i : Instr) (s : State) (a : Reg) (ea : Word) : Prop :=
  Mapped s ea → Mapped s (ea + 1#16) → ∃ t, exec i s = .next t ∧ t.pair a = s.cellRead16 ea ∧
    (DefaultFlags s → t.flags = s.flags) ∧ Loaded (pairRegs a) (s.logAfterLoad16 ea) s t

/-- The pc becomes pc + BRANCH_SCALE * offset modulo 2^16 if the condition holds and stays if not; nothing else changes, no flag under the
default policy (R31). -/
def Branches (i : Instr) (s : State) (cond : Bool) (imm : Byte) : Prop :=
  ∃ t, exec i s = .next t ∧
    (t.pc.toNat : Int) = (s.pc.toNat + if cond then s.cfg.branchScale.toNat * imm.toInt else 0) % 2 ^ 16 ∧
    OnlyRegs [14, 15] s t

/-- The access is refused because nothing lies at an address (20_memory.md R42). -/
def RefusedAt (i : Instr) (s : State) (a : Word) : Prop := exec i s = .refused (.unmapped a)

/-- An access of one byte at ea is refused where nothing lies there. -/
def Refuses8 (i : Instr) (s : State) (ea : Word) : Prop := s.kindAt ea = .none → RefusedAt i s ea

/-- An access of two bytes at ea is refused where nothing lies at ea, or at ea + 1. -/
def Refuses16 (i : Instr) (s : State) (ea : Word) : Prop :=
  (s.kindAt ea = .none → RefusedAt i s ea) ∧ (Mapped s ea → s.kindAt (ea + 1#16) = .none → RefusedAt i s (ea + 1#16))

/-! ### Classes of instructions -/

/-- The instructions that store to data memory (20_memory.md R47). -/
def isStore : Instr → Bool
  | .str _ _ | .strab _ _ | .strsa _ _ | .strx _ _ _ | .strxi _ _ _ | .stfsa _ => true
  | .stp _ _ | .stpab _ _ | .stpsa _ _ | .stpx _ _ _ | .stpxi _ _ _ => true
  | .addi _ _ | .adci _ _ | .addpbi _ _ | .subpbi _ _ | .cmpi _ _ | .andi _ _ | .orri _ _ | .cpyi _ _ => false
  | .add _ _ | .adc _ _ | .addpb _ _ | .addp _ _ | .sub _ _ | .sbc _ _ | .subpb _ _ | .subp _ _ => false
  | .cmp _ _ | .cmpp _ _ | .umul _ _ | .smul _ _ | .and _ _ | .orr _ _ | .xor _ _ => false
  | .andp _ _ | .orrp _ _ | .xorp _ _ | .inv _ | .invp _ | .neg _ | .negp _ | .abs _ | .absp _ => false
  | .lsl _ _ | .lsr _ _ | .asr _ _ | .rol _ _ | .ror _ _ | .rolc _ | .rorc _ => false
  | .lslp _ _ | .lsrp _ _ | .asrp _ _ | .rolp _ _ | .rorp _ _ | .rolcp _ | .rorcp _ => false
  | .cpy _ _ | .cpyp _ _ | .cpyfrf _ | .cpytof _ | .swp _ _ | .call _ => false
  | .ldr _ _ | .ldrab _ _ | .ldrsa _ _ | .ldfab _ | .ldp _ _ | .ldpab _ _ | .ldpsa _ _ => false
  | .eni | .dii | .reti | .swpira _ | .cpypira _ => false
  | .ldrx _ _ _ | .ldpx _ _ _ => false
  | .bra _ | .bnv _ | .bne _ | .beq _ | .bcc _ | .bcs _ | .bls _ | .bhi _ | .bvc _ | .bvs _ | .bpl _ | .bmi _ => false
  | .cpypi _ _ | .calli _ | .ldrxi _ _ _ | .ldpxi _ _ _ => false
  | .lslpi _ _ | .lsrpi _ _ | .asrpi _ _ | .rolpi _ _ | .rorpi _ _ => false

/-- The instructions whose row in R31 is "-": no flag is written (10_state.md R31). -/
def keepsFlags : Instr → Bool
  | .cpyi _ _ | .cpy _ _ | .cpyp _ _ | .cpypi _ _ | .cpyfrf _ | .swp _ _ | .call _ | .calli _ => true
  | .ldr _ _ | .str _ _ | .ldrab _ _ | .strab _ _ | .ldrsa _ _ | .strsa _ _ | .stfsa _ => true
  | .ldp _ _ | .stp _ _ | .ldpab _ _ | .stpab _ _ | .ldpsa _ _ | .stpsa _ _ => true
  | .ldrx _ _ _ | .strx _ _ _ | .ldpx _ _ _ | .stpx _ _ _ => true
  | .ldrxi _ _ _ | .strxi _ _ _ | .ldpxi _ _ _ | .stpxi _ _ _ => true
  | .eni | .dii | .reti | .swpira _ | .cpypira _ => true
  | .bra _ | .bnv _ | .bne _ | .beq _ | .bcc _ | .bcs _ | .bls _ | .bhi _ | .bvc _ | .bvs _ | .bpl _ | .bmi _ => true
  | .addi _ _ | .adci _ _ | .addpbi _ _ | .subpbi _ _ | .cmpi _ _ | .andi _ _ | .orri _ _ => false
  | .add _ _ | .adc _ _ | .addpb _ _ | .addp _ _ | .sub _ _ | .sbc _ _ | .subpb _ _ | .subp _ _ => false
  | .cmp _ _ | .cmpp _ _ | .umul _ _ | .smul _ _ | .and _ _ | .orr _ _ | .xor _ _ => false
  | .andp _ _ | .orrp _ _ | .xorp _ _ | .inv _ | .invp _ | .neg _ | .negp _ | .abs _ | .absp _ => false
  | .lsl _ _ | .lsr _ _ | .asr _ _ | .rol _ _ | .ror _ _ | .rolc _ | .rorc _ => false
  | .lslp _ _ | .lsrp _ _ | .asrp _ _ | .rolp _ _ | .rorp _ _ | .rolcp _ | .rorcp _ => false
  | .cpytof _ | .ldfab _ => false
  | .lslpi _ _ | .lsrpi _ _ | .asrpi _ _ | .rolpi _ _ | .rorpi _ _ => false

end Sys2Proof.Machine
end

