-- ==== Sys2Proof/Certificates/Slice0/Obligations.lean ====
section
/-! DEFINITION. The statements for the provers. R<n> are the rules of spec/. `exec i s` is the instruction's effect on the state that the
fetch has left, with the pc already advanced (10_state.md R24), so `s.pc` there is the address of the next instruction. -/

open Sys2Proof Sys2Proof.Machine

/-! ### Encoding -/

/-- 30_encoding.md R60 to R75: under every opcode map that numbers each mnemonic once, the bytes the encoder writes for a well-formed
instruction decode to it, whatever bytes follow. -/
def Obligations.DecodeOfEncodeIsTheInstruction : Prop :=
  ∀ (m : OpcodeMap) (i : Instr) (rest : List Byte), m.wf = true → i.wellFormed = true →
    decode m (encode m i ++ rest) = .ok (i, rest)

/-- 30_encoding.md R76, first sentence: under the default opcode map, exactly the listed halfwords select no instruction. -/
def Obligations.UnallocatedHalfwordsAreTheListed : Prop :=
  ∀ w : Word, (∃ e, decodeHead OpcodeMap.listOrder w = .error e) ↔
    (0xBF00 ≤ w.toNat ∧ w.toNat ≤ 0xBFFF ∨ 0xDC00 ≤ w.toNat ∧ w.toNat ≤ 0xDFFF ∨ 0xE300 ≤ w.toNat ∧ w.toNat ≤ 0xE3FF ∨
     0xE680 ≤ w.toNat ∧ w.toNat ≤ 0xE7FF ∨ 0xE800 ≤ w.toNat)

/-- 30_encoding.md R76: a step whose first halfword selects no instruction has no successor. -/
def Obligations.UnallocatedHalfwordRefusesTheStep : Prop :=
  ∀ (s : State) (e : DecodeReject), s.interruptTaken = false → PlainCell s s.pc → PlainCell s (s.pc + 1#16) →
    decodeHead s.cfg.opcodeMap (Word.ofBytes (s.byteAt s.pc) (s.byteAt (s.pc + 1#16))) = .error e →
    step s = .refused (.unallocated (Word.ofBytes (s.byteAt s.pc) (s.byteAt (s.pc + 1#16))))

/-- 30_encoding.md R79: the length of an allocated word depends only on `w[15:10]`. -/
def Obligations.LengthFollowsTheLeadingBits : Prop :=
  ∀ (m : OpcodeMap) (w : Word) (h : Head), decodeHead m w = .ok h →
    (w.extractLsb' 10 6 = 0b111000#6 → h.length = 4) ∧ (w.extractLsb' 10 6 ≠ 0b111000#6 → h.length = 2)

/-- 30_encoding.md R77: a field that an instruction ignores may hold anything, and so may bit 0 of a 4-bit field that names a pair: the word
reads as the same instruction, row by row of R77's table. -/
def Obligations.IgnoredFieldsReadAlike : Prop :=
  ∀ (m : OpcodeMap) (a b c : Reg) (n : Byte) (imm : Word), m.wf = true →
    let reads (h : Head) (i : Instr) : Prop := (decodeHead m (encodeHead m h)).map (·.instr imm) = .ok i
    (reads (.g2 .inv a b) (.inv a) ∧ reads (.g2 .invp a b) (.invp a.pairName) ∧
     reads (.g2 .neg a b) (.neg a) ∧ reads (.g2 .negp a b) (.negp a.pairName) ∧
     reads (.g2 .abs a b) (.abs a) ∧ reads (.g2 .absp a b) (.absp a.pairName)) ∧
    (reads (.g2 .eni a b) .eni ∧ reads (.g2 .dii a b) .dii ∧ reads (.g2 .reti a b) .reti) ∧
    (reads (.g5 .cpypi a b) (.cpypi a.pairName imm) ∧ reads (.g5 .calli a b) (.calli imm)) ∧
    (reads (.g2 .rolc a b) (.rolc a) ∧ reads (.g2 .rorc a b) (.rorc a) ∧
     reads (.g2 .rolcp a b) (.rolcp a.pairName) ∧ reads (.g2 .rorcp a b) (.rorcp a.pairName) ∧
     reads (.g2 .cpyfrf a b) (.cpyfrf a) ∧ reads (.g2 .cpytof a b) (.cpytof a) ∧ reads (.g2 .call a b) (.call a.pairName) ∧
     reads (.g2 .swpira a b) (.swpira a.pairName) ∧ reads (.g2 .cpypira a b) (.cpypira a.pairName)) ∧
    (reads (.g2 .ldfab a b) (.ldfab b.pairName) ∧ reads (.g2 .stfsa a b) (.stfsa b.pairName)) ∧
    (reads (.g1 .addpbi a n) (.addpbi a.pairName n) ∧ reads (.g1 .subpbi a n) (.subpbi a.pairName n) ∧
     reads (.g2 .addpb a b) (.addpb a.pairName b) ∧ reads (.g2 .subpb a b) (.subpb a.pairName b) ∧
     reads (.g2 .addp a b) (.addp a.pairName b.pairName) ∧ reads (.g2 .subp a b) (.subp a.pairName b.pairName) ∧
     reads (.g2 .cmpp a b) (.cmpp a.pairName b.pairName) ∧ reads (.g2 .andp a b) (.andp a.pairName b.pairName) ∧
     reads (.g2 .orrp a b) (.orrp a.pairName b.pairName) ∧ reads (.g2 .xorp a b) (.xorp a.pairName b.pairName) ∧
     reads (.g2 .lslp a b) (.lslp a.pairName b) ∧ reads (.g2 .lsrp a b) (.lsrp a.pairName b) ∧
     reads (.g2 .asrp a b) (.asrp a.pairName b) ∧ reads (.g2 .rolp a b) (.rolp a.pairName b) ∧
     reads (.g2 .rorp a b) (.rorp a.pairName b) ∧
     reads (.g2 .cpyp a b) (.cpyp a.pairName b.pairName) ∧ reads (.g2 .swp a b) (.swp a.pairName b.pairName)) ∧
    (reads (.g2 .ldr a b) (.ldr a b.pairName) ∧ reads (.g2 .str a b) (.str a b.pairName) ∧
     reads (.g2 .ldrab a b) (.ldrab a b.pairName) ∧ reads (.g2 .strab a b) (.strab a b.pairName) ∧
     reads (.g2 .ldrsa a b) (.ldrsa a b.pairName) ∧ reads (.g2 .strsa a b) (.strsa a b.pairName) ∧
     reads (.g2 .ldp a b) (.ldp a.pairName b.pairName) ∧ reads (.g2 .stp a b) (.stp a.pairName b.pairName) ∧
     reads (.g2 .ldpab a b) (.ldpab a.pairName b.pairName) ∧ reads (.g2 .stpab a b) (.stpab a.pairName b.pairName) ∧
     reads (.g2 .ldpsa a b) (.ldpsa a.pairName b.pairName) ∧ reads (.g2 .stpsa a b) (.stpsa a.pairName b.pairName) ∧
     reads (.g3 .ldpx a b c) (.ldpx a.pairName b.pairName c.pairName) ∧
     reads (.g3 .stpx a b c) (.stpx a.pairName b.pairName c.pairName) ∧
     reads (.g5 .ldpxi a b) (.ldpxi a.pairName b.pairName imm) ∧ reads (.g5 .stpxi a b) (.stpxi a.pairName b.pairName imm))

/-- Every instruction the decoder reads is well formed, under any opcode map. -/
def Obligations.DecodedInstructionsAreWellFormed : Prop :=
  ∀ (m : OpcodeMap) (bs : List Byte) (i : Instr) (rest : List Byte), decode m bs = .ok (i, rest) → i.wellFormed = true

/-- Words written out from the encodings of the six groups read as the instructions the spec's examples name. -/
def Obligations.SampleWordsDecode : Prop :=
  decodeTableWord 16 0x0101 = some (.addi 1 0x01) ∧ decodeTableWord 16 0x8225 = some (.addpb 2 5) ∧
  decodeTableWord 16 0xB9CA = some (.stpsa 12 10) ∧ decodeTableWord 16 0xC98A = some (.ldpx 6 2 4) ∧
  decodeTableWord 16 0xD3FA = some (.beq 0xFA) ∧ decodeTableWord 32 0x0010E101 = some (.ldrxi 0 2 0x0010) ∧
  decodeTableWord 16 0xE514 = some (.asrpi 2 4)

/-! ### The step -/

/-- 10_state.md R24: when no interrupt is taken and the bytes at the pc are an instruction in plain cells, the step is the effect of that
instruction on the state whose pc is advanced past it (the environment's next irq level being used up). -/
def Obligations.StepRunsTheDecodedInstruction : Prop :=
  ∀ (s : State) (i : Instr), s.interruptTaken = false → InstrAtPc s i →
    step s = exec i (s.sampled.setPc (s.pc + BitVec.ofNat 16 i.length))

/-- 60_exceptions.md R306, R307: with ie = 1 and irq = 1 the step is the interrupt entry: `ira <- pc; ie <- 0; pc <- INT_VECTOR`, and
nothing else changes; of the flags this is said for the default policy (R31). That irq is a list of coming levels of which the step uses
up one is the model's choice (entry 7), and so is the number of the coming draw, which goes up by one (entry 20). -/
def Obligations.InterruptEntryIsTheWholeStep : Prop :=
  ∀ s : State, s.ie = true → s.irq = true → ∃ t, step s = .next t ∧ t.ira = s.pc ∧ t.ie = false ∧ t.pc = s.cfg.intVector ∧
    SameRegsExcept [14, 15] s t ∧ (DefaultFlags s → t.flags = s.flags) ∧ SameMemory s t ∧ t.cfg = s.cfg ∧ t.devLog = s.devLog ∧
    t.irqs = s.irqs.tail ∧ t.draw = s.draw + 1

/-- 10_state.md R32: with ie = 0 a request is ignored: the step does not depend on the level of irq. -/
def Obligations.RequestIgnoredWhileDisabled : Prop :=
  ∀ (s : State) (later : List Bool) (x y : Bool), s.ie = false →
    step { s with irqs := x :: later } = step { s with irqs := y :: later }

/-- 20_memory.md R42, 10_state.md R24: a fetch at an address mapped to nothing is refused, and so is one whose second byte, or whose first
or second byte of the immediate, is; the bytes before it lie in plain cells. -/
def Obligations.UnmappedFetchRefusesTheStep : Prop :=
  ∀ s : State, s.interruptTaken = false →
    (s.kindAt s.pc = .none → step s = .refused (.unmapped s.pc)) ∧
    (PlainCell s s.pc → s.kindAt (s.pc + 1#16) = .none → step s = .refused (.unmapped (s.pc + 1#16))) ∧
    (∀ h, PlainCell s s.pc → PlainCell s (s.pc + 1#16) →
      decodeHead s.cfg.opcodeMap (Word.ofBytes (s.byteAt s.pc) (s.byteAt (s.pc + 1#16))) = .ok h → h.length = 4 →
      (s.kindAt (s.pc + 2#16) = .none → step s = .refused (.unmapped (s.pc + 2#16))) ∧
      (PlainCell s (s.pc + 2#16) → s.kindAt (s.pc + 3#16) = .none → step s = .refused (.unmapped (s.pc + 3#16))))

/-- 70_reset_and_hazards.md R341: from every state reset may leave, whatever irq is, the first step is the instruction step at RESET_PC. -/
def Obligations.FirstStepAfterReset : Prop :=
  ∀ (s : State) (i : Instr), AfterReset s → InstrAtPc s i →
    step s = exec i (s.sampled.setPc (s.cfg.resetPc + BitVec.ofNat 16 i.length))

/-- 70_reset_and_hazards.md R340: reset puts RESET_PC into r14 and r15 and clears ie, for every choice of the parameters. -/
def Obligations.ResetSetsPcAndIe : Prop :=
  ∀ c : Config, (State.resetWith c).reg 14 = c.resetPc.high ∧ (State.resetWith c).reg 15 = c.resetPc.low ∧
    (State.resetWith c).pc = c.resetPc ∧ (State.resetWith c).ie = false ∧ (State.resetWith c).cfg = c

/-- 70_reset_and_hazards.md R352, a convention of the spec: at the end of a run every step leaves the whole state of the machine unchanged,
and the run stays ended; of the flags this is said for the default policy (R31). That irq is a list of coming levels, that "irq stays 0"
means that all of them are 0, and that the step uses up one is the model's choice (entry 7); so is the number of the coming draw, which
goes up by one (entry 20). -/
def Obligations.EndedRunStaysEnded : Prop :=
  ∀ s : State, RunEnded s → ∃ f, (DefaultFlags s → f = s.flags) ∧
    step s = .next { s with irqs := s.irqs.tail, draw := s.draw + 1, flags := f } ∧
    RunEnded { s with irqs := s.irqs.tail, draw := s.draw + 1, flags := f }

/-! ### Invariants and rules of the whole machine -/

/-- Every step keeps the memory in canonical form, from every state that has it. The form is the model's own (entry 5). -/
def Obligations.StepKeepsMemoryCanonical : Prop := ∀ s t : State, CanonicalMemory s → step s = .next t → CanonicalMemory t

/-- The memory of the reset state is in canonical form (the model's own, entry 5). -/
def Obligations.ResetMemoryIsCanonical : Prop := CanonicalMemory State.reset

/-- 10_state.md R39: the parameters are no state of the machine: no step changes them. That a state carries them is the model's
choice (entry 8). -/
def Obligations.StepKeepsTheParameters : Prop := ∀ s t : State, step s = .next t → t.cfg = s.cfg

/-- 20_memory.md R41: a rom cell reads as a fixed byte: no step changes it. -/
def Obligations.RomKeepsItsContent : Prop :=
  ∀ (s t : State) (a : Word), s.kindAt a = .rom → step s = .next t → t.byteAt a = s.byteAt a

/-- 60_exceptions.md R306: one level of irq is sampled per step. The list of coming levels is the model's choice (entry 7), and so is the
number of the coming draw, which goes up by one (entry 20). -/
def Obligations.OneRequestLevelPerStep : Prop :=
  ∀ s t : State, step s = .next t → t.irqs = s.irqs.tail ∧ t.draw = s.draw + 1

/-- 10_state.md R32: of the instructions only eni, dii and reti write ie. -/
def Obligations.OnlyEniDiiRetiWriteIe : Prop :=
  ∀ (i : Instr) (s t : State), exec i s = .next t → t.ie ≠ s.ie → i = .eni ∨ i = .dii ∨ i = .reti

/-- 10_state.md R33, 43_group2_loadstore_interrupt.md R198: of the instructions only swpira writes ira. -/
def Obligations.OnlySwpiraWritesIra : Prop :=
  ∀ (i : Instr) (s t : State), exec i s = .next t → t.ira ≠ s.ira → ∃ a, i = .swpira a

/-- 20_memory.md R47: an instruction that is no store changes no byte of memory. -/
def Obligations.OnlyStoresChangeMemory : Prop :=
  ∀ (i : Instr) (s t : State), isStore i = false → exec i s = .next t → SameMemory s t

/-- 10_state.md R31: under the default policy the instructions of the "-" rows write no flag. -/
def Obligations.MovesAndBranchesKeepTheFlags : Prop :=
  ∀ (i : Instr) (s t : State), keepsFlags i = true → DefaultFlags s → exec i s = .next t → t.flags = s.flags

/-- 20_memory.md R47: no instruction accesses more than two data bytes, as devices see it: the model's record of device accesses
(entry 6) grows by two at most. -/
def Obligations.AtMostTwoDataAccesses : Prop :=
  ∀ (i : Instr) (s t : State), exec i s = .next t → ∃ l, t.devLog = l ++ s.devLog ∧ l.length ≤ 2

/-- 60_exceptions.md R300, 20_memory.md R42: an instruction is refused only for an access to an address mapped to nothing, and where the
map leaves no address empty every instruction runs. -/
def Obligations.RefusalOnlyWhereNothingIsMapped : Prop :=
  ∀ (i : Instr) (s : State),
    (∀ r, exec i s = .refused r → ∃ a, r = .unmapped a ∧ s.kindAt a = .none) ∧
    ((∀ a, Mapped s a) → ∃ t, exec i s = .next t)

/-! ### Arithmetic and logic -/

/-- R100, R101, R120, R121: addi, adci, add, adc. -/
def Obligations.ByteSums : Prop :=
  ∀ (s : State) (a b : Reg) (imm : Byte),
    Sum8 (.addi a imm) s a (s.reg a) imm false ∧ Sum8 (.adci a imm) s a (s.reg a) imm s.flags.c ∧
    Sum8 (.add a b) s a (s.reg a) (s.reg b) false ∧ Sum8 (.adc a b) s a (s.reg a) (s.reg b) s.flags.c

/-- R124, R125, R140: sub, sbc, neg. The borrow of sbc is the absence of C; no flag of neg is forced (R31). -/
def Obligations.ByteDifferences : Prop :=
  ∀ (s : State) (a b : Reg),
    Diff8 (.sub a b) s a (s.reg a) (s.reg b) false ∧ Diff8 (.sbc a b) s a (s.reg a) (s.reg b) (!s.flags.c) ∧
    ∃ t, exec (.neg a) s = .next t ∧ ((t.reg a).toNat : Int) = (-((s.reg a).toNat : Int)) % 2 ^ 8 ∧
      (DefaultFlags s → t.flags = diffFlags 0#8 (s.reg a) false (t.reg a)) ∧ OnlyRegsAndFlags [a] s t

/-- R102, R122, R123: addpbi, addpb, addp; an 8-bit operand is unsigned (D15). -/
def Obligations.PairSums : Prop :=
  ∀ (s : State) (a b : Reg) (imm : Byte),
    Sum16 (.addpbi a imm) s a (s.pair a) (BitVec.ofNat 16 imm.toNat) ∧
    Sum16 (.addpb a b) s a (s.pair a) (BitVec.ofNat 16 (s.reg b).toNat) ∧
    Sum16 (.addp a b) s a (s.pair a) (s.pair b)

/-- R103, R126, R127, R141: subpbi, subpb, subp, negp; an 8-bit operand is unsigned (D15). -/
def Obligations.PairDifferences : Prop :=
  ∀ (s : State) (a b : Reg) (imm : Byte),
    Diff16 (.subpbi a imm) s a (s.pair a) (BitVec.ofNat 16 imm.toNat) ∧
    Diff16 (.subpb a b) s a (s.pair a) (BitVec.ofNat 16 (s.reg b).toNat) ∧
    Diff16 (.subp a b) s a (s.pair a) (s.pair b) ∧
    Diff16 (.negp a) s a 0#16 (s.pair a)

/-- R104, R128, R129: cmpi, cmp, cmpp write the flags of the difference and nothing else. -/
def Obligations.Comparisons : Prop :=
  ∀ (s : State) (a b : Reg) (imm : Byte),
    Compares (.cmpi a imm) s (s.reg a) imm ∧ Compares (.cmp a b) s (s.reg a) (s.reg b) ∧
    Compares (.cmpp a b) s (s.pair a) (s.pair b)

/-- R108, R109: the words the aliases stand for. `sbci rA, n` is adci with 0xFF - n and is a subtraction with borrow in all four flags;
`subi rA, n` is addi with (0x100 - n) mod 0x100 and agrees with a subtraction but for C when n = 0 and V when n = 0x80. -/
def Obligations.SubtractionAliases : Prop :=
  ∀ (s : State) (a : Reg) (n : Byte),
    Diff8 (.adci a (0xFF#8 - n)) s a (s.reg a) n (!s.flags.c) ∧
    ∃ t, exec (.addi a (0#8 - n)) s = .next t ∧ ((t.reg a).toNat : Int) = (((s.reg a).toNat : Int) - n.toNat) % 2 ^ 8 ∧
      t.flags.c = (decide (n ≠ 0#8) && decide (n.toNat ≤ (s.reg a).toNat)) ∧
      (DefaultFlags s → t.flags.n = decide ((t.reg a).toInt < 0) ∧ t.flags.z = decide (t.reg a = 0#8) ∧
        t.flags.v = if n = 0x80#8 then decide (0x80 ≤ (s.reg a).toNat)
                    else signedOverflow 8 ((s.reg a).toInt - n.toInt)) ∧
      OnlyRegsAndFlags [a] s t

/-- R130, R131, R146: the exact product goes to the pair that contains rA. -/
def Obligations.Products : Prop :=
  ∀ (s : State) (a b : Reg),
    Computes16 (.umul a b) s a (fun r => r.toNat = (s.reg a).toNat * (s.reg b).toNat) ∧
    Computes16 (.smul a b) s a (fun r => r.toInt = (s.reg a).toInt * (s.reg b).toInt)

/-- R105, R106, R132, R133, R134, R138, R142: the 8-bit logic instructions, bit by bit, and the absolute value. -/
def Obligations.ByteLogic : Prop :=
  ∀ (s : State) (a b : Reg) (imm : Byte),
    Computes8 (.andi a imm) s a (fun r => ∀ k < 8, r.getLsbD k = ((s.reg a).getLsbD k && imm.getLsbD k)) ∧
    Computes8 (.orri a imm) s a (fun r => ∀ k < 8, r.getLsbD k = ((s.reg a).getLsbD k || imm.getLsbD k)) ∧
    Computes8 (.and a b) s a (fun r => ∀ k < 8, r.getLsbD k = ((s.reg a).getLsbD k && (s.reg b).getLsbD k)) ∧
    Computes8 (.orr a b) s a (fun r => ∀ k < 8, r.getLsbD k = ((s.reg a).getLsbD k || (s.reg b).getLsbD k)) ∧
    Computes8 (.xor a b) s a (fun r => ∀ k < 8, r.getLsbD k = ((s.reg a).getLsbD k != (s.reg b).getLsbD k)) ∧
    Computes8 (.inv a) s a (fun r => ∀ k < 8, r.getLsbD k = !(s.reg a).getLsbD k) ∧
    Computes8 (.abs a) s a (fun r => r.toNat = (s.reg a).toInt.natAbs)

/-- R135, R136, R137, R139, R143: the 16-bit logic instructions, bit by bit, and the absolute value. -/
def Obligations.PairLogic : Prop :=
  ∀ (s : State) (a b : Reg),
    Computes16 (.andp a b) s a (fun r => ∀ k < 16, r.getLsbD k = ((s.pair a).getLsbD k && (s.pair b).getLsbD k)) ∧
    Computes16 (.orrp a b) s a (fun r => ∀ k < 16, r.getLsbD k = ((s.pair a).getLsbD k || (s.pair b).getLsbD k)) ∧
    Computes16 (.xorp a b) s a (fun r => ∀ k < 16, r.getLsbD k = ((s.pair a).getLsbD k != (s.pair b).getLsbD k)) ∧
    Computes16 (.invp a) s a (fun r => ∀ k < 16, r.getLsbD k = !(s.pair a).getLsbD k) ∧
    Computes16 (.absp a) s a (fun r => r.toNat = (s.pair a).toInt.natAbs)

/-! ### Shifts and rotates -/

/-- R148 to R154: the 8-bit shifts and rotates by rB, by the formulas of R148, in both shift count modes. -/
def Obligations.ByteShifts : Prop :=
  ∀ (s : State) (a b : Reg),
    let n := s.shiftAmount 8 (s.reg b).toNat
    Computes8 (.lsl a b) s a (fun r => r.toNat = specLsl 8 (s.reg a).toNat n) ∧
    Computes8 (.lsr a b) s a (fun r => r.toNat = specLsr (s.reg a).toNat n) ∧
    Computes8 (.asr a b) s a (fun r => r.toInt = specAsr (s.reg a) n) ∧
    Computes8 (.rol a b) s a (fun r => r.toNat = specRol 8 (s.reg a).toNat n) ∧
    Computes8 (.ror a b) s a (fun r => r.toNat = specRor 8 (s.reg a).toNat n)

/-- R148, R149, R157 to R161: the 16-bit shifts and rotates by the 8-bit register rB. -/
def Obligations.PairShifts : Prop :=
  ∀ (s : State) (a b : Reg),
    let n := s.shiftAmount 16 (s.reg b).toNat
    Computes16 (.lslp a b) s a (fun r => r.toNat = specLsl 16 (s.pair a).toNat n) ∧
    Computes16 (.lsrp a b) s a (fun r => r.toNat = specLsr (s.pair a).toNat n) ∧
    Computes16 (.asrp a b) s a (fun r => r.toInt = specAsr (s.pair a) n) ∧
    Computes16 (.rolp a b) s a (fun r => r.toNat = specRol 16 (s.pair a).toNat n) ∧
    Computes16 (.rorp a b) s a (fun r => r.toNat = specRor 16 (s.pair a).toNat n)

/-- R250 to R254: the pair shifts by an immediate; the shift count mode has no effect (R255). -/
def Obligations.ImmediateShifts : Prop :=
  ∀ (s : State) (a : Reg) (imm : BitVec 4),
    Computes16 (.lslpi a imm) s a (fun r => r.toNat = specLsl 16 (s.pair a).toNat imm.toNat) ∧
    Computes16 (.lsrpi a imm) s a (fun r => r.toNat = specLsr (s.pair a).toNat imm.toNat) ∧
    Computes16 (.asrpi a imm) s a (fun r => r.toInt = specAsr (s.pair a) imm.toNat) ∧
    Computes16 (.rolpi a imm) s a (fun r => r.toNat = specRol 16 (s.pair a).toNat imm.toNat) ∧
    Computes16 (.rorpi a imm) s a (fun r => r.toNat = specRor 16 (s.pair a).toNat imm.toNat)

/-- R155, R156, R162, R163: the rotates through carry rotate the 9-bit (17-bit) value C ++ rA by one bit; C is forced, N and Z come from the
new rA under the default policy, V is unchanged. -/
def Obligations.RotatesThroughCarry : Prop :=
  ∀ (s : State) (a : Reg),
    (∃ t, exec (.rolc a) s = .next t ∧
      BitVec.ofBool t.flags.c ++ t.reg a = (BitVec.ofBool s.flags.c ++ s.reg a).rotateLeft 1 ∧
      (DefaultFlags s → t.flags = { nzFlags (t.reg a) s.flags with c := t.flags.c }) ∧ OnlyRegsAndFlags [a] s t) ∧
    (∃ t, exec (.rorc a) s = .next t ∧
      BitVec.ofBool t.flags.c ++ t.reg a = (BitVec.ofBool s.flags.c ++ s.reg a).rotateRight 1 ∧
      (DefaultFlags s → t.flags = { nzFlags (t.reg a) s.flags with c := t.flags.c }) ∧ OnlyRegsAndFlags [a] s t) ∧
    (∃ t, exec (.rolcp a) s = .next t ∧
      BitVec.ofBool t.flags.c ++ t.pair a = (BitVec.ofBool s.flags.c ++ s.pair a).rotateLeft 1 ∧
      (DefaultFlags s → t.flags = { nzFlags (t.pair a) s.flags with c := t.flags.c }) ∧ OnlyRegsAndFlags (pairRegs a) s t) ∧
    (∃ t, exec (.rorcp a) s = .next t ∧
      BitVec.ofBool t.flags.c ++ t.pair a = (BitVec.ofBool s.flags.c ++ s.pair a).rotateRight 1 ∧
      (DefaultFlags s → t.flags = { nzFlags (t.pair a) s.flags with c := t.flags.c }) ∧ OnlyRegsAndFlags (pairRegs a) s t)

/-! ### Copies, flags byte, swap, calls -/

/-- R107, R165, R166, R240: cpyi, cpy, cpyp, cpypi. -/
def Obligations.Copies : Prop :=
  ∀ (s : State) (a b : Reg) (imm : Byte) (imm16 : Word),
    Moves8 (.cpyi a imm) s a (fun r => r = imm) ∧ Moves8 (.cpy a b) s a (fun r => r = s.reg b) ∧
    Moves16 (.cpyp a b) s a (s.pair b) ∧ Moves16 (.cpypi a imm16) s a imm16

/-- R167, R168: cpyfrf writes each flag at its FLAG_BIT and 0 elsewhere; cpytof reads each flag from its FLAG_BIT and writes nothing
else. Where two flags have one bit, which R28 does not foresee, the "or" that cpyfrf writes is the model's choice (entry 11). -/
def Obligations.FlagsByteMoves : Prop :=
  ∀ (s : State) (a : Reg),
    Moves8 (.cpyfrf a) s a (IsFlagsByte s.cfg s.flags) ∧
    ∃ t, exec (.cpytof a) s = .next t ∧ t.flags.z = (s.reg a).getLsbD s.cfg.flagBitZ ∧
      t.flags.c = (s.reg a).getLsbD s.cfg.flagBitC ∧ t.flags.v = (s.reg a).getLsbD s.cfg.flagBitV ∧
      t.flags.n = (s.reg a).getLsbD s.cfg.flagBitN ∧ OnlyRegsAndFlags [] s t

/-- R168: cpyfrf followed by cpytof of the same register restores the flags exactly, whatever the policy, where the flags have four
different bits. -/
def Obligations.FlagsByteRoundTrip : Prop :=
  ∀ (s t u : State) (a : Reg), s.cfg.flagBitsDistinct = true → exec (.cpyfrf a) s = .next t → exec (.cpytof a) t = .next u →
    u.flags = s.flags

/-- R170: swp exchanges two pairs; naming one pair twice changes none. No flag changes under the default policy (R31). -/
def Obligations.SwapExchangesPairs : Prop :=
  ∀ (s : State) (a b : Reg), ∃ t, exec (.swp a b) s = .next t ∧ t.pair a = s.pair b ∧ t.pair b = s.pair a ∧
    OnlyRegs (pairRegs a ++ pairRegs b) s t

/-- R171, R241: the link register gets the address of the next instruction, then the pc the target; call lr reads the new lr. No flag
changes under the default policy (R31). -/
def Obligations.Calls : Prop :=
  ∀ (s : State) (a : Reg) (imm : Word),
    (∃ t, exec (.call a) s = .next t ∧ t.lr = s.pc ∧ (SamePair a lrPair → t.pc = s.pc) ∧ (¬ SamePair a lrPair → t.pc = s.pair a) ∧
      OnlyRegs [12, 13, 14, 15] s t) ∧
    (∃ t, exec (.calli imm) s = .next t ∧ t.lr = s.pc ∧ t.pc = imm ∧ OnlyRegs [12, 13, 14, 15] s t)

/-! ### Loads and stores -/

/-- R180, R210, R242: ldr, ldrx, ldrxi. -/
def Obligations.ByteLoads : Prop :=
  ∀ (s : State) (a b c : Reg) (imm : Word),
    Loads8 (.ldr a b) s a (s.pair b) ∧ Loads8 (.ldrx a b c) s a (s.pair b + s.pair c) ∧
    Loads8 (.ldrxi a b imm) s a (s.pair b + imm)

/-- R188, R212, R244: ldp, ldpx, ldpxi. -/
def Obligations.PairLoads : Prop :=
  ∀ (s : State) (a b c : Reg) (imm : Word),
    Loads16 (.ldp a b) s a (s.pair b) ∧ Loads16 (.ldpx a b c) s a (s.pair b + s.pair c) ∧
    Loads16 (.ldpxi a b imm) s a (s.pair b + imm)

/-- R181, R211, R243: str, strx, strxi. -/
def Obligations.ByteStores : Prop :=
  ∀ (s : State) (a b c : Reg) (imm : Word),
    let stores (i : Instr) (ea : Word) : Prop := Mapped s ea → ∃ t, exec i s = .next t ∧ Stored8 [] ea (s.reg a) s t
    stores (.str a b) (s.pair b) ∧ stores (.strx a b c) (s.pair b + s.pair c) ∧ stores (.strxi a b imm) (s.pair b + imm)

/-- R189, R213, R245: stp, stpx, stpxi. -/
def Obligations.PairStores : Prop :=
  ∀ (s : State) (a b c : Reg) (imm : Word),
    let stores (i : Instr) (ea : Word) : Prop :=
      Mapped s ea → Mapped s (ea + 1#16) → ∃ t, exec i s = .next t ∧ Stored16 [] ea (s.pair a) s t
    stores (.stp a b) (s.pair b) ∧ stores (.stpx a b c) (s.pair b + s.pair c) ∧ stores (.stpxi a b imm) (s.pair b + imm)

/-- R182, R184: ldrab loads at the pointer plus 1 and keeps that pointer, but for a byte of it that the load replaces; ldrsa loads at the
pointer and then subtracts 1 from the pair, the loaded byte in it where rA is inside it. -/
def Obligations.ByteLoadsWithUpdate : Prop :=
  ∀ (s : State) (a b : Reg),
    (Mapped s (s.pair b + 1#16) → ∃ t, exec (.ldrab a b) s = .next t ∧ t.reg a = s.cellRead s.devLog (s.pair b + 1#16) ∧
      (a ≠ pairHi b → t.reg (pairHi b) = (s.pair b + 1#16).high) ∧ (a ≠ pairLo b → t.reg (pairLo b) = (s.pair b + 1#16).low) ∧
      (DefaultFlags s → t.flags = s.flags) ∧ Loaded (a :: pairRegs b) (s.logAfterLoad s.devLog (s.pair b + 1#16)) s t) ∧
    (Mapped s (s.pair b) → ∃ t, exec (.ldrsa a b) s = .next t ∧
      (a ≠ pairHi b → a ≠ pairLo b → t.reg a = s.cellRead s.devLog (s.pair b) ∧ t.pair b = s.pair b - 1#16) ∧
      (a = pairHi b → t.pair b = Word.ofBytes (s.cellRead s.devLog (s.pair b)) (s.reg (pairLo b)) - 1#16) ∧
      (a = pairLo b → t.pair b = Word.ofBytes (s.reg (pairHi b)) (s.cellRead s.devLog (s.pair b)) - 1#16) ∧
      (DefaultFlags s → t.flags = s.flags) ∧ Loaded (a :: pairRegs b) (s.logAfterLoad s.devLog (s.pair b)) s t)

/-- R183, R185: strab stores at the pointer plus 1 what rA holds once the pointer is moved; strsa stores at the pointer what rA held, then
moves the pointer down by 1. -/
def Obligations.ByteStoresWithUpdate : Prop :=
  ∀ (s : State) (a b : Reg),
    (Mapped s (s.pair b + 1#16) → ∃ t, exec (.strab a b) s = .next t ∧ t.pair b = s.pair b + 1#16 ∧
      Stored8 (pairRegs b) (s.pair b + 1#16)
        (if a = pairHi b then (s.pair b + 1#16).high else if a = pairLo b then (s.pair b + 1#16).low else s.reg a) s t) ∧
    (Mapped s (s.pair b) → ∃ t, exec (.strsa a b) s = .next t ∧ t.pair b = s.pair b - 1#16 ∧
      Stored8 (pairRegs b) (s.pair b) (s.reg a) s t)

/-- R186, R187: ldfab loads the flags from the byte at the pointer plus 1; stfsa stores at the pointer a byte that holds each flag at its
FLAG_BIT and 0 elsewhere (R28), then moves the pointer by STFSA_DIRECTION. Where two flags have one bit, which R28 does not foresee, the
"or" that stfsa stores is the model's choice (entry 11). -/
def Obligations.FlagsLoadAndStore : Prop :=
  ∀ (s : State) (b : Reg),
    (Mapped s (s.pair b + 1#16) → ∃ t, exec (.ldfab b) s = .next t ∧ t.pair b = s.pair b + 1#16 ∧
      t.flags.z = (s.cellRead s.devLog (s.pair b + 1#16)).getLsbD s.cfg.flagBitZ ∧
      t.flags.c = (s.cellRead s.devLog (s.pair b + 1#16)).getLsbD s.cfg.flagBitC ∧
      t.flags.v = (s.cellRead s.devLog (s.pair b + 1#16)).getLsbD s.cfg.flagBitV ∧
      t.flags.n = (s.cellRead s.devLog (s.pair b + 1#16)).getLsbD s.cfg.flagBitN ∧
      Loaded (pairRegs b) (s.logAfterLoad s.devLog (s.pair b + 1#16)) s t) ∧
    (Mapped s (s.pair b) → ∃ t, exec (.stfsa b) s = .next t ∧
      t.pair b = (if s.cfg.stfsaDirection = .subtract then s.pair b - 1#16 else s.pair b + 1#16) ∧
      ∃ v, IsFlagsByte s.cfg s.flags v ∧ Stored8 (pairRegs b) (s.pair b) v s t)

/-- R190, R192: ldpab loads at the pointer plus 2; ldpsa loads at the pointer, then subtracts 2 from the pair. Where both operands name one
pair, the loaded value replaces the pointer, and ldpsa subtracts 2 from it. -/
def Obligations.PairLoadsWithUpdate : Prop :=
  ∀ (s : State) (a b : Reg),
    (Mapped s (s.pair b + 2#16) → Mapped s (s.pair b + 2#16 + 1#16) → ∃ t, exec (.ldpab a b) s = .next t ∧
      t.pair a = s.cellRead16 (s.pair b + 2#16) ∧ (¬ SamePair a b → t.pair b = s.pair b + 2#16) ∧
      (DefaultFlags s → t.flags = s.flags) ∧ Loaded (pairRegs a ++ pairRegs b) (s.logAfterLoad16 (s.pair b + 2#16)) s t) ∧
    (Mapped s (s.pair b) → Mapped s (s.pair b + 1#16) → ∃ t, exec (.ldpsa a b) s = .next t ∧
      (SamePair a b → t.pair a = s.cellRead16 (s.pair b) - 2#16) ∧
      (¬ SamePair a b → t.pair a = s.cellRead16 (s.pair b) ∧ t.pair b = s.pair b - 2#16) ∧
      (DefaultFlags s → t.flags = s.flags) ∧ Loaded (pairRegs a ++ pairRegs b) (s.logAfterLoad16 (s.pair b)) s t)

/-- R191, R193: stpab stores at the pointer plus 2 what rAp holds once the pointer is moved; stpsa stores at the pointer what rAp held, then
moves the pointer down by 2. -/
def Obligations.PairStoresWithUpdate : Prop :=
  ∀ (s : State) (a b : Reg),
    (Mapped s (s.pair b + 2#16) → Mapped s (s.pair b + 2#16 + 1#16) → ∃ t, exec (.stpab a b) s = .next t ∧ t.pair b = s.pair b + 2#16 ∧
      (SamePair a b → Stored16 (pairRegs b) (s.pair b + 2#16) (s.pair b + 2#16) s t) ∧
      (¬ SamePair a b → Stored16 (pairRegs b) (s.pair b + 2#16) (s.pair a) s t)) ∧
    (Mapped s (s.pair b) → Mapped s (s.pair b + 1#16) → ∃ t, exec (.stpsa a b) s = .next t ∧ t.pair b = s.pair b - 2#16 ∧
      Stored16 (pairRegs b) (s.pair b) (s.pair a) s t)

/-- 20_memory.md R42: each load and store refuses where nothing lies at an address it accesses. -/
def Obligations.UnmappedDataAccessIsRefused : Prop :=
  ∀ (s : State) (a b c : Reg) (imm : Word),
    (Refuses8 (.ldr a b) s (s.pair b) ∧ Refuses8 (.str a b) s (s.pair b) ∧ Refuses8 (.ldrab a b) s (s.pair b + 1#16) ∧
     Refuses8 (.strab a b) s (s.pair b + 1#16) ∧ Refuses8 (.ldrsa a b) s (s.pair b) ∧ Refuses8 (.strsa a b) s (s.pair b) ∧
     Refuses8 (.ldfab b) s (s.pair b + 1#16) ∧ Refuses8 (.stfsa b) s (s.pair b)) ∧
    (Refuses8 (.ldrx a b c) s (s.pair b + s.pair c) ∧ Refuses8 (.strx a b c) s (s.pair b + s.pair c) ∧
     Refuses8 (.ldrxi a b imm) s (s.pair b + imm) ∧ Refuses8 (.strxi a b imm) s (s.pair b + imm)) ∧
    (Refuses16 (.ldp a b) s (s.pair b) ∧ Refuses16 (.stp a b) s (s.pair b) ∧ Refuses16 (.ldpab a b) s (s.pair b + 2#16) ∧
     Refuses16 (.stpab a b) s (s.pair b + 2#16) ∧ Refuses16 (.ldpsa a b) s (s.pair b) ∧ Refuses16 (.stpsa a b) s (s.pair b)) ∧
    (Refuses16 (.ldpx a b c) s (s.pair b + s.pair c) ∧ Refuses16 (.stpx a b c) s (s.pair b + s.pair c) ∧
     Refuses16 (.ldpxi a b imm) s (s.pair b + imm) ∧ Refuses16 (.stpxi a b imm) s (s.pair b + imm))

/-- 20_memory.md R55: a "subtract after" store followed by an "add before" load through the same pair gives back the byte and the
pointer, in ram and where the loaded register is no part of the pointer. -/
def Obligations.PushThenPopRestores : Prop :=
  ∀ (s : State) (a b c : Reg),
    (s.kindAt (s.pair b) = .ram → c ≠ pairHi b → c ≠ pairLo b →
      ∃ t u, exec (.strsa a b) s = .next t ∧ exec (.ldrab c b) t = .next u ∧ u.reg c = s.reg a ∧ u.pair b = s.pair b) ∧
    (s.kindAt (s.pair b) = .ram → s.kindAt (s.pair b + 1#16) = .ram → ¬ SamePair c b →
      ∃ t u, exec (.stpsa a b) s = .next t ∧ exec (.ldpab c b) t = .next u ∧ u.pair c = s.pair a ∧ u.pair b = s.pair b) ∧
    (s.kindAt (s.pair b) = .ram → s.cfg.stfsaDirection = .subtract → s.cfg.flagBitsDistinct = true →
      ∃ t u, exec (.stfsa b) s = .next t ∧ exec (.ldfab b) t = .next u ∧ u.flags = s.flags ∧ u.pair b = s.pair b)

/-! ### Interrupt instructions and branches -/

/-- R195, R196, R197: eni sets ie, dii clears it, reti sets the pc to ira and sets ie; nothing else changes, no flag under the default
policy (R31). -/
def Obligations.EnableDisableReturn : Prop :=
  ∀ s : State,
    (∃ f, exec .eni s = .next { s with ie := true, flags := f } ∧ (DefaultFlags s → f = s.flags)) ∧
    (∃ f, exec .dii s = .next { s with ie := false, flags := f } ∧ (DefaultFlags s → f = s.flags)) ∧
    ∃ t, exec .reti s = .next t ∧ t.pc = s.ira ∧ t.ie = true ∧ t.ira = s.ira ∧ (DefaultFlags s → t.flags = s.flags) ∧
      SameRegsExcept [14, 15] s t ∧ SameMemory s t ∧ t.cfg = s.cfg ∧ t.irqs = s.irqs ∧ t.draw = s.draw ∧ t.devLog = s.devLog

/-- R198, R199: swpira exchanges ira and a pair; cpypira copies ira to a pair. No flag changes under the default policy (R31). -/
def Obligations.IraMoves : Prop :=
  ∀ (s : State) (a : Reg),
    (∃ t, exec (.swpira a) s = .next t ∧ t.ira = s.pair a ∧ t.pair a = s.ira ∧ t.ie = s.ie ∧ (DefaultFlags s → t.flags = s.flags) ∧
      SameRegsExcept (pairRegs a) s t ∧ SameMemory s t ∧ t.cfg = s.cfg ∧ t.irqs = s.irqs ∧ t.draw = s.draw ∧ t.devLog = s.devLog) ∧
    Moves16 (.cpypira a) s a s.ira

/-- 60_exceptions.md R307, R310: an interrupt entry followed by a reti continues at the instruction the interrupt came before, with
interrupts enabled, every register and, under the default policy (R31), every flag as before; ira keeps the address. The level of irq used
up (entry 7) and the number of the coming draw (entry 20) are the model's. -/
def Obligations.EntryThenReturnResumes : Prop :=
  ∀ s t : State, s.ie = true → s.irq = true → step s = .next t →
    ∃ f, exec .reti t = .next { s with ira := s.pc, irqs := s.irqs.tail, draw := s.draw + 1, flags := f } ∧ (DefaultFlags s → f = s.flags)

/-- R220 to R232: the twelve branches, with both variants of bls and bhi. No flag changes under the default policy (R31). -/
def Obligations.BranchConditions : Prop :=
  ∀ (s : State) (imm : Byte),
    Branches (.bra imm) s true imm ∧ Branches (.bnv imm) s false imm ∧
    Branches (.bne imm) s (s.flags.z == false) imm ∧ Branches (.beq imm) s (s.flags.z == true) imm ∧
    Branches (.bcc imm) s (s.flags.c == false) imm ∧ Branches (.bcs imm) s (s.flags.c == true) imm ∧
    (s.cfg.unsignedBranch = .gloss →
      Branches (.bls imm) s (s.flags.c == false || s.flags.z == true) imm ∧
      Branches (.bhi imm) s (s.flags.c == true && s.flags.z == false) imm) ∧
    (s.cfg.unsignedBranch = .literal →
      Branches (.bls imm) s ((s.flags.c == true && s.flags.z == false) || s.flags.z == true) imm ∧
      Branches (.bhi imm) s (s.flags.c == false && s.flags.z == true) imm) ∧
    Branches (.bvc imm) s (s.flags.v == false) imm ∧ Branches (.bvs imm) s (s.flags.v == true) imm ∧
    Branches (.bpl imm) s (s.flags.n == false) imm ∧ Branches (.bmi imm) s (s.flags.n == true) imm

/-- R225 to R228 with R128: after cmp, bcc, bcs, bls and bhi (in the gloss variant) branch exactly when the first operand is unsigned less,
greater or equal, less or equal, greater; beq and bne when the operands are equal, differ. -/
def Obligations.BranchesAfterCompare : Prop :=
  ∀ (s : State) (a b : Reg) (imm : Byte), s.cfg.unsignedBranch = .gloss →
    ∃ t, exec (.cmp a b) s = .next t ∧
      Branches (.bcc imm) t (decide ((s.reg a).toNat < (s.reg b).toNat)) imm ∧
      Branches (.bcs imm) t (decide ((s.reg b).toNat ≤ (s.reg a).toNat)) imm ∧
      Branches (.bls imm) t (decide ((s.reg a).toNat ≤ (s.reg b).toNat)) imm ∧
      Branches (.bhi imm) t (decide ((s.reg b).toNat < (s.reg a).toNat)) imm ∧
      Branches (.beq imm) t (decide (s.reg a = s.reg b)) imm ∧
      Branches (.bne imm) t (decide (s.reg a ≠ s.reg b)) imm

/-- 00_scope.md R11, R104: after cmp or cmpp under the default policy, N differs from V exactly when the first operand is signed less. -/
def Obligations.SignedOrderAfterCompare : Prop :=
  ∀ (s t u : State) (a b : Reg), DefaultFlags s → exec (.cmp a b) s = .next t → exec (.cmpp a b) s = .next u →
    ((t.flags.n ≠ t.flags.v) ↔ (s.reg a).toInt < (s.reg b).toInt) ∧
    ((u.flags.n ≠ u.flags.v) ↔ (s.pair a).toInt < (s.pair b).toInt)
end

