-- ==== Sys2Proof/Laws/Decode.lean ====
section
/-! SUPPORT. The opcode map looked up both ways, and the first halfword read back from its encoding. -/

namespace Sys2Proof

/-- A mnemonic that a table holds is found at its own number. -/
theorem OpcodeMap.lookup_idxOf {α : Type} [DecidableEq α] (group : Nat) {t : List (Option α)} {x : α} (h : some x ∈ t) :
    OpcodeMap.lookup group t (t.idxOf (some x)) = .ok x := by
  have hlt : t.idxOf (some x) < t.length := List.idxOf_lt_length_of_mem h
  simp [OpcodeMap.lookup, hlt]

/-- What the well-formedness of an opcode map says of each group: its size, and that every mnemonic stands in it. -/
theorem OpcodeMap.wf_cases {m : OpcodeMap} (h : m.wf = true) :
    (m.g1.length = 8 ∧ ∀ op, some op ∈ m.g1) ∧ (m.g2.length = 64 ∧ ∀ op, some op ∈ m.g2) ∧
    (m.g3.length = 4 ∧ ∀ op, some op ∈ m.g3) ∧ (m.g4.length = 16 ∧ ∀ op, some op ∈ m.g4) ∧
    (m.g5.length = 8 ∧ ∀ op, some op ∈ m.g5) ∧ (m.g6.length = 8 ∧ ∀ op, some op ∈ m.g6) := by
  simp only [OpcodeMap.wf, Bool.and_eq_true, beq_iff_eq, List.all_eq_true, Bool.or_eq_true] at h
  have key : ∀ {α : Type} [DecidableEq α] {l t : List (Option α)},
      (∀ o ∈ l, o.isNone = true ∨ t.count o = 1) → ∀ op, some op ∈ l → some op ∈ t := by
    intro α _ l t H op hop
    have := (H _ hop).resolve_left (by simp)
    exact List.count_pos_iff.mp (by omega)
  obtain ⟨⟨⟨⟨⟨⟨⟨⟨⟨⟨⟨h1, h2⟩, h3⟩, h4⟩, h5⟩, h6⟩, k1⟩, k2⟩, k3⟩, k4⟩, k5⟩, k6⟩ := h
  refine ⟨⟨h1, fun op => key k1 op ?_⟩, ⟨h2, fun op => key k2 op ?_⟩, ⟨h3, fun op => key k3 op ?_⟩,
    ⟨h4, fun op => key k4 op ?_⟩, ⟨h5, fun op => key k5 op ?_⟩, ⟨h6, fun op => key k6 op ?_⟩⟩ <;>
  cases op <;> decide

/-- What the decoder reads of a first halfword: a 3-bit pair field cannot hold an odd register number. -/
def Head.evened : Head → Head
  | .g1 op a imm => .g1 op a imm
  | .g2 op a b => .g2 op a b
  | .g3 op a b c => .g3 op a b.pairName c.pairName
  | .g4 op imm => .g4 op imm
  | .g5 op a b => .g5 op a b.pairName
  | .g6 op a imm => .g6 op a.pairName imm

theorem Word.bits_ofNat (x lo len : Nat) : Word.bits (BitVec.ofNat 16 x) lo len = x % 65536 / 2 ^ lo % 2 ^ len := rfl

theorem decodeHead_g1 {m : OpcodeMap} {op : Op1} {n : Nat} {a : Reg} {imm : Byte} (hn : n < 8)
    (e : OpcodeMap.lookup 1 m.g1 n = .ok op) :
    decodeHead m (BitVec.ofNat 16 (0x0000 + n * 2 ^ 12 + a.val * 2 ^ 8 + imm.toNat)) = .ok (.g1 op a imm) := by
  have ha := a.isLt
  have himm := imm.isLt
  generalize hx : 0x0000 + n * 2 ^ 12 + a.val * 2 ^ 8 + imm.toNat = x
  have p : Word.bits (BitVec.ofNat 16 x) 15 1 = 0 := by rw [Word.bits_ofNat]; omega
  have o : Word.bits (BitVec.ofNat 16 x) 12 3 = n := by rw [Word.bits_ofNat]; omega
  have f0 : Word.regField (BitVec.ofNat 16 x) 8 = a := by
    apply Fin.ext; simp only [Word.regField, Word.bits_ofNat]; omega
  have f1 : Word.imm8Field (BitVec.ofNat 16 x) = imm := by
    apply BitVec.eq_of_toNat_eq; simp only [Word.imm8Field, Word.bits_ofNat, BitVec.toNat_ofNat]; omega
  rw [decodeHead, if_pos p, o, f0, f1, e]
  rfl

theorem decodeHead_g2 {m : OpcodeMap} {op : Op2} {n : Nat} {a b : Reg} (hn : n < 64)
    (e : OpcodeMap.lookup 2 m.g2 n = .ok op) :
    decodeHead m (BitVec.ofNat 16 (0x8000 + n * 2 ^ 8 + a.val * 2 ^ 4 + b.val)) = .ok (.g2 op a b) := by
  have ha := a.isLt
  have hb := b.isLt
  generalize hx : 0x8000 + n * 2 ^ 8 + a.val * 2 ^ 4 + b.val = x
  have n0 : Word.bits (BitVec.ofNat 16 x) 15 1 ≠ 0 := by rw [Word.bits_ofNat]; omega
  have p : Word.bits (BitVec.ofNat 16 x) 14 2 = 0b10 := by rw [Word.bits_ofNat]; omega
  have o : Word.bits (BitVec.ofNat 16 x) 8 6 = n := by rw [Word.bits_ofNat]; omega
  have f0 : Word.regField (BitVec.ofNat 16 x) 4 = a := by
    apply Fin.ext; simp only [Word.regField, Word.bits_ofNat]; omega
  have f1 : Word.regField (BitVec.ofNat 16 x) 0 = b := by
    apply Fin.ext; simp only [Word.regField, Word.bits_ofNat]; omega
  rw [decodeHead, if_neg n0, if_pos p, o, f0, f1, e]
  rfl

theorem decodeHead_g3 {m : OpcodeMap} {op : Op3} {n : Nat} {a b c : Reg} (hn : n < 4)
    (e : OpcodeMap.lookup 3 m.g3 n = .ok op) :
    decodeHead m (BitVec.ofNat 16 (0xC000 + n * 2 ^ 10 + a.val * 2 ^ 6 + b.val / 2 * 2 ^ 3 + c.val / 2)) = .ok (.g3 op a b.pairName c.pairName) := by
  have ha := a.isLt
  have hb := b.isLt
  have hc := c.isLt
  generalize hx : 0xC000 + n * 2 ^ 10 + a.val * 2 ^ 6 + b.val / 2 * 2 ^ 3 + c.val / 2 = x
  have n0 : Word.bits (BitVec.ofNat 16 x) 15 1 ≠ 0 := by rw [Word.bits_ofNat]; omega
  have n1 : Word.bits (BitVec.ofNat 16 x) 14 2 ≠ 0b10 := by rw [Word.bits_ofNat]; omega
  have p : Word.bits (BitVec.ofNat 16 x) 12 4 = 0b1100 := by rw [Word.bits_ofNat]; omega
  have o : Word.bits (BitVec.ofNat 16 x) 10 2 = n := by rw [Word.bits_ofNat]; omega
  have f0 : Word.regField (BitVec.ofNat 16 x) 6 = a := by
    apply Fin.ext; simp only [Word.regField, Word.bits_ofNat]; omega
  have f1 : Word.pairField (BitVec.ofNat 16 x) 3 = b.pairName := by
    apply Fin.ext; simp only [Word.pairField, Reg.pairName, Word.bits_ofNat]; omega
  have f2 : Word.pairField (BitVec.ofNat 16 x) 0 = c.pairName := by
    apply Fin.ext; simp only [Word.pairField, Reg.pairName, Word.bits_ofNat]; omega
  rw [decodeHead, if_neg n0, if_neg n1, if_pos p, o, f0, f1, f2, e]
  rfl

theorem decodeHead_g4 {m : OpcodeMap} {op : Op4} {n : Nat} {imm : Byte} (hn : n < 16)
    (e : OpcodeMap.lookup 4 m.g4 n = .ok op) :
    decodeHead m (BitVec.ofNat 16 (0xD000 + n * 2 ^ 8 + imm.toNat)) = .ok (.g4 op imm) := by
  have himm := imm.isLt
  generalize hx : 0xD000 + n * 2 ^ 8 + imm.toNat = x
  have n0 : Word.bits (BitVec.ofNat 16 x) 15 1 ≠ 0 := by rw [Word.bits_ofNat]; omega
  have n1 : Word.bits (BitVec.ofNat 16 x) 14 2 ≠ 0b10 := by rw [Word.bits_ofNat]; omega
  have n2 : Word.bits (BitVec.ofNat 16 x) 12 4 ≠ 0b1100 := by rw [Word.bits_ofNat]; omega
  have p : Word.bits (BitVec.ofNat 16 x) 12 4 = 0b1101 := by rw [Word.bits_ofNat]; omega
  have o : Word.bits (BitVec.ofNat 16 x) 8 4 = n := by rw [Word.bits_ofNat]; omega
  have f0 : Word.imm8Field (BitVec.ofNat 16 x) = imm := by
    apply BitVec.eq_of_toNat_eq; simp only [Word.imm8Field, Word.bits_ofNat, BitVec.toNat_ofNat]; omega
  rw [decodeHead, if_neg n0, if_neg n1, if_neg n2, if_pos p, o, f0, e]
  rfl

theorem decodeHead_g5 {m : OpcodeMap} {op : Op5} {n : Nat} {a b : Reg} (hn : n < 8)
    (e : OpcodeMap.lookup 5 m.g5 n = .ok op) :
    decodeHead m (BitVec.ofNat 16 (0xE000 + n * 2 ^ 7 + a.val * 2 ^ 3 + b.val / 2)) = .ok (.g5 op a b.pairName) := by
  have ha := a.isLt
  have hb := b.isLt
  generalize hx : 0xE000 + n * 2 ^ 7 + a.val * 2 ^ 3 + b.val / 2 = x
  have n0 : Word.bits (BitVec.ofNat 16 x) 15 1 ≠ 0 := by rw [Word.bits_ofNat]; omega
  have n1 : Word.bits (BitVec.ofNat 16 x) 14 2 ≠ 0b10 := by rw [Word.bits_ofNat]; omega
  have n2 : Word.bits (BitVec.ofNat 16 x) 12 4 ≠ 0b1100 := by rw [Word.bits_ofNat]; omega
  have n3 : Word.bits (BitVec.ofNat 16 x) 12 4 ≠ 0b1101 := by rw [Word.bits_ofNat]; omega
  have p : Word.bits (BitVec.ofNat 16 x) 10 6 = 0b111000 := by rw [Word.bits_ofNat]; omega
  have o : Word.bits (BitVec.ofNat 16 x) 7 3 = n := by rw [Word.bits_ofNat]; omega
  have f0 : Word.regField (BitVec.ofNat 16 x) 3 = a := by
    apply Fin.ext; simp only [Word.regField, Word.bits_ofNat]; omega
  have f1 : Word.pairField (BitVec.ofNat 16 x) 0 = b.pairName := by
    apply Fin.ext; simp only [Word.pairField, Reg.pairName, Word.bits_ofNat]; omega
  rw [decodeHead, if_neg n0, if_neg n1, if_neg n2, if_neg n3, if_pos p, o, f0, f1, e]
  rfl

theorem decodeHead_g6 {m : OpcodeMap} {op : Op6} {n : Nat} {a : Reg} {imm : BitVec 4} (hn : n < 8)
    (e : OpcodeMap.lookup 6 m.g6 n = .ok op) :
    decodeHead m (BitVec.ofNat 16 (0xE400 + n * 2 ^ 7 + a.val / 2 * 2 ^ 4 + imm.toNat)) = .ok (.g6 op a.pairName imm) := by
  have ha := a.isLt
  have himm := imm.isLt
  generalize hx : 0xE400 + n * 2 ^ 7 + a.val / 2 * 2 ^ 4 + imm.toNat = x
  have n0 : Word.bits (BitVec.ofNat 16 x) 15 1 ≠ 0 := by rw [Word.bits_ofNat]; omega
  have n1 : Word.bits (BitVec.ofNat 16 x) 14 2 ≠ 0b10 := by rw [Word.bits_ofNat]; omega
  have n2 : Word.bits (BitVec.ofNat 16 x) 12 4 ≠ 0b1100 := by rw [Word.bits_ofNat]; omega
  have n3 : Word.bits (BitVec.ofNat 16 x) 12 4 ≠ 0b1101 := by rw [Word.bits_ofNat]; omega
  have n4 : Word.bits (BitVec.ofNat 16 x) 10 6 ≠ 0b111000 := by rw [Word.bits_ofNat]; omega
  have p : Word.bits (BitVec.ofNat 16 x) 10 6 = 0b111001 := by rw [Word.bits_ofNat]; omega
  have o : Word.bits (BitVec.ofNat 16 x) 7 3 = n := by rw [Word.bits_ofNat]; omega
  have f0 : Word.pairField (BitVec.ofNat 16 x) 4 = a.pairName := by
    apply Fin.ext; simp only [Word.pairField, Reg.pairName, Word.bits_ofNat]; omega
  have f1 : Word.imm4Field (BitVec.ofNat 16 x) = imm := by
    apply BitVec.eq_of_toNat_eq; simp only [Word.imm4Field, Word.bits_ofNat, BitVec.toNat_ofNat]; omega
  rw [decodeHead, if_neg n0, if_neg n1, if_neg n2, if_neg n3, if_neg n4, if_pos p, o, f0, f1, e]
  rfl

/-- Reading back a first halfword that was written. -/
theorem decodeHead_encodeHead {m : OpcodeMap} (hm : m.wf = true) (h : Head) :
    decodeHead m (encodeHead m h) = .ok h.evened := by
  obtain ⟨⟨l1, k1⟩, ⟨l2, k2⟩, ⟨l3, k3⟩, ⟨l4, k4⟩, ⟨l5, k5⟩, ⟨l6, k6⟩⟩ := OpcodeMap.wf_cases hm
  cases h with
  | g1 op a imm =>
    exact decodeHead_g1 (l1 ▸ List.idxOf_lt_length_of_mem (k1 op)) (OpcodeMap.lookup_idxOf 1 (k1 op))
  | g2 op a b =>
    exact decodeHead_g2 (l2 ▸ List.idxOf_lt_length_of_mem (k2 op)) (OpcodeMap.lookup_idxOf 2 (k2 op))
  | g3 op a b c =>
    exact decodeHead_g3 (l3 ▸ List.idxOf_lt_length_of_mem (k3 op)) (OpcodeMap.lookup_idxOf 3 (k3 op))
  | g4 op imm =>
    exact decodeHead_g4 (l4 ▸ List.idxOf_lt_length_of_mem (k4 op)) (OpcodeMap.lookup_idxOf 4 (k4 op))
  | g5 op a b =>
    exact decodeHead_g5 (l5 ▸ List.idxOf_lt_length_of_mem (k5 op)) (OpcodeMap.lookup_idxOf 5 (k5 op))
  | g6 op a imm =>
    exact decodeHead_g6 (l6 ▸ List.idxOf_lt_length_of_mem (k6 op)) (OpcodeMap.lookup_idxOf 6 (k6 op))

end Sys2Proof
end

