-- ==== Sys2Proof/Laws/State.lean ====
section
/-! SUPPORT. One lemma per field per update of the state, true by rfl, so that no proof unfolds a record update. -/

namespace Sys2Proof.Machine

variable (s : State)

/-! ### setReg -/

@[simp] theorem State.setReg_flags (i : Reg) (v : Byte) : (s.setReg i v).flags = s.flags := rfl
@[simp] theorem State.setReg_ie (i : Reg) (v : Byte) : (s.setReg i v).ie = s.ie := rfl
@[simp] theorem State.setReg_ira (i : Reg) (v : Byte) : (s.setReg i v).ira = s.ira := rfl
@[simp] theorem State.setReg_mem (i : Reg) (v : Byte) : (s.setReg i v).mem = s.mem := rfl
@[simp] theorem State.setReg_irqs (i : Reg) (v : Byte) : (s.setReg i v).irqs = s.irqs := rfl
@[simp] theorem State.setReg_devLog (i : Reg) (v : Byte) : (s.setReg i v).devLog = s.devLog := rfl
@[simp] theorem State.setReg_draw (i : Reg) (v : Byte) : (s.setReg i v).draw = s.draw := rfl
@[simp] theorem State.setReg_cfg (i : Reg) (v : Byte) : (s.setReg i v).cfg = s.cfg := rfl
@[simp] theorem State.byteAt_setReg (i : Reg) (v : Byte) (q : Word) : (s.setReg i v).byteAt q = s.byteAt q := rfl
@[simp] theorem State.policyFlags_setReg (i : Reg) (v : Byte) (u : FlagWriter) (g : Flags) :
    (s.setReg i v).policyFlags u g = s.policyFlags u g := rfl
@[simp] theorem State.kindAt_setReg (i : Reg) (v : Byte) (q : Word) : (s.setReg i v).kindAt q = s.kindAt q := rfl

/-! ### setPair -/

@[simp] theorem State.setPair_flags (x : Reg) (v : Word) : (s.setPair x v).flags = s.flags := rfl
@[simp] theorem State.setPair_ie (x : Reg) (v : Word) : (s.setPair x v).ie = s.ie := rfl
@[simp] theorem State.setPair_ira (x : Reg) (v : Word) : (s.setPair x v).ira = s.ira := rfl
@[simp] theorem State.setPair_mem (x : Reg) (v : Word) : (s.setPair x v).mem = s.mem := rfl
@[simp] theorem State.setPair_irqs (x : Reg) (v : Word) : (s.setPair x v).irqs = s.irqs := rfl
@[simp] theorem State.setPair_devLog (x : Reg) (v : Word) : (s.setPair x v).devLog = s.devLog := rfl
@[simp] theorem State.setPair_draw (x : Reg) (v : Word) : (s.setPair x v).draw = s.draw := rfl
@[simp] theorem State.setPair_cfg (x : Reg) (v : Word) : (s.setPair x v).cfg = s.cfg := rfl
@[simp] theorem State.byteAt_setPair (x : Reg) (v : Word) (q : Word) : (s.setPair x v).byteAt q = s.byteAt q := rfl
@[simp] theorem State.policyFlags_setPair (x : Reg) (v : Word) (u : FlagWriter) (g : Flags) :
    (s.setPair x v).policyFlags u g = s.policyFlags u g := rfl
@[simp] theorem State.kindAt_setPair (x : Reg) (v : Word) (q : Word) : (s.setPair x v).kindAt q = s.kindAt q := rfl

/-! ### setPc -/

@[simp] theorem State.setPc_flags (t : Word) : (s.setPc t).flags = s.flags := rfl
@[simp] theorem State.setPc_ie (t : Word) : (s.setPc t).ie = s.ie := rfl
@[simp] theorem State.setPc_ira (t : Word) : (s.setPc t).ira = s.ira := rfl
@[simp] theorem State.setPc_mem (t : Word) : (s.setPc t).mem = s.mem := rfl
@[simp] theorem State.setPc_irqs (t : Word) : (s.setPc t).irqs = s.irqs := rfl
@[simp] theorem State.setPc_devLog (t : Word) : (s.setPc t).devLog = s.devLog := rfl
@[simp] theorem State.setPc_draw (t : Word) : (s.setPc t).draw = s.draw := rfl
@[simp] theorem State.setPc_cfg (t : Word) : (s.setPc t).cfg = s.cfg := rfl
@[simp] theorem State.byteAt_setPc (t : Word) (q : Word) : (s.setPc t).byteAt q = s.byteAt q := rfl
@[simp] theorem State.policyFlags_setPc (t : Word) (u : FlagWriter) (g : Flags) : (s.setPc t).policyFlags u g = s.policyFlags u g := rfl
@[simp] theorem State.kindAt_setPc (t : Word) (q : Word) : (s.setPc t).kindAt q = s.kindAt q := rfl

/-! ### setLr -/

@[simp] theorem State.setLr_flags (t : Word) : (s.setLr t).flags = s.flags := rfl
@[simp] theorem State.setLr_ie (t : Word) : (s.setLr t).ie = s.ie := rfl
@[simp] theorem State.setLr_ira (t : Word) : (s.setLr t).ira = s.ira := rfl
@[simp] theorem State.setLr_mem (t : Word) : (s.setLr t).mem = s.mem := rfl
@[simp] theorem State.setLr_irqs (t : Word) : (s.setLr t).irqs = s.irqs := rfl
@[simp] theorem State.setLr_devLog (t : Word) : (s.setLr t).devLog = s.devLog := rfl
@[simp] theorem State.setLr_draw (t : Word) : (s.setLr t).draw = s.draw := rfl
@[simp] theorem State.setLr_cfg (t : Word) : (s.setLr t).cfg = s.cfg := rfl
@[simp] theorem State.byteAt_setLr (t : Word) (q : Word) : (s.setLr t).byteAt q = s.byteAt q := rfl
@[simp] theorem State.policyFlags_setLr (t : Word) (u : FlagWriter) (g : Flags) : (s.setLr t).policyFlags u g = s.policyFlags u g := rfl
@[simp] theorem State.kindAt_setLr (t : Word) (q : Word) : (s.setLr t).kindAt q = s.kindAt q := rfl

/-! ### pairUp -/

@[simp] theorem State.pairUp_flags (b : Reg) (n : Word) : (s.pairUp b n).flags = s.flags := rfl
@[simp] theorem State.pairUp_ie (b : Reg) (n : Word) : (s.pairUp b n).ie = s.ie := rfl
@[simp] theorem State.pairUp_ira (b : Reg) (n : Word) : (s.pairUp b n).ira = s.ira := rfl
@[simp] theorem State.pairUp_mem (b : Reg) (n : Word) : (s.pairUp b n).mem = s.mem := rfl
@[simp] theorem State.pairUp_irqs (b : Reg) (n : Word) : (s.pairUp b n).irqs = s.irqs := rfl
@[simp] theorem State.pairUp_devLog (b : Reg) (n : Word) : (s.pairUp b n).devLog = s.devLog := rfl
@[simp] theorem State.pairUp_draw (b : Reg) (n : Word) : (s.pairUp b n).draw = s.draw := rfl
@[simp] theorem State.pairUp_cfg (b : Reg) (n : Word) : (s.pairUp b n).cfg = s.cfg := rfl
@[simp] theorem State.byteAt_pairUp (b : Reg) (n : Word) (q : Word) : (s.pairUp b n).byteAt q = s.byteAt q := rfl
@[simp] theorem State.policyFlags_pairUp (b : Reg) (n : Word) (u : FlagWriter) (g : Flags) :
    (s.pairUp b n).policyFlags u g = s.policyFlags u g := rfl
@[simp] theorem State.kindAt_pairUp (b : Reg) (n : Word) (q : Word) : (s.pairUp b n).kindAt q = s.kindAt q := rfl

/-! ### pairDown -/

@[simp] theorem State.pairDown_flags (b : Reg) (n : Word) : (s.pairDown b n).flags = s.flags := rfl
@[simp] theorem State.pairDown_ie (b : Reg) (n : Word) : (s.pairDown b n).ie = s.ie := rfl
@[simp] theorem State.pairDown_ira (b : Reg) (n : Word) : (s.pairDown b n).ira = s.ira := rfl
@[simp] theorem State.pairDown_mem (b : Reg) (n : Word) : (s.pairDown b n).mem = s.mem := rfl
@[simp] theorem State.pairDown_irqs (b : Reg) (n : Word) : (s.pairDown b n).irqs = s.irqs := rfl
@[simp] theorem State.pairDown_devLog (b : Reg) (n : Word) : (s.pairDown b n).devLog = s.devLog := rfl
@[simp] theorem State.pairDown_draw (b : Reg) (n : Word) : (s.pairDown b n).draw = s.draw := rfl
@[simp] theorem State.pairDown_cfg (b : Reg) (n : Word) : (s.pairDown b n).cfg = s.cfg := rfl
@[simp] theorem State.byteAt_pairDown (b : Reg) (n : Word) (q : Word) : (s.pairDown b n).byteAt q = s.byteAt q := rfl
@[simp] theorem State.policyFlags_pairDown (b : Reg) (n : Word) (u : FlagWriter) (g : Flags) :
    (s.pairDown b n).policyFlags u g = s.policyFlags u g := rfl
@[simp] theorem State.kindAt_pairDown (b : Reg) (n : Word) (q : Word) : (s.pairDown b n).kindAt q = s.kindAt q := rfl

/-! ### setFlags -/

@[simp] theorem State.setFlags_flags (f : Flags) : (s.setFlags f).flags = f := rfl
@[simp] theorem State.setFlags_ie (f : Flags) : (s.setFlags f).ie = s.ie := rfl
@[simp] theorem State.setFlags_ira (f : Flags) : (s.setFlags f).ira = s.ira := rfl
@[simp] theorem State.setFlags_mem (f : Flags) : (s.setFlags f).mem = s.mem := rfl
@[simp] theorem State.setFlags_irqs (f : Flags) : (s.setFlags f).irqs = s.irqs := rfl
@[simp] theorem State.setFlags_devLog (f : Flags) : (s.setFlags f).devLog = s.devLog := rfl
@[simp] theorem State.setFlags_draw (f : Flags) : (s.setFlags f).draw = s.draw := rfl
@[simp] theorem State.setFlags_cfg (f : Flags) : (s.setFlags f).cfg = s.cfg := rfl
@[simp] theorem State.reg_setFlags (f : Flags) (q : Reg) : (s.setFlags f).reg q = s.reg q := rfl
@[simp] theorem State.pair_setFlags (f : Flags) (q : Reg) : (s.setFlags f).pair q = s.pair q := rfl
@[simp] theorem State.pc_setFlags (f : Flags) : (s.setFlags f).pc = s.pc := rfl
@[simp] theorem State.byteAt_setFlags (f : Flags) (q : Word) : (s.setFlags f).byteAt q = s.byteAt q := rfl
@[simp] theorem State.kindAt_setFlags (f : Flags) (q : Word) : (s.setFlags f).kindAt q = s.kindAt q := rfl

/-! ### putFlags -/

@[simp] theorem State.putFlags_flags (w : FlagWriter) (f : Flags) : (s.putFlags w f).flags = s.policyFlags w f := rfl
@[simp] theorem State.putFlags_ie (w : FlagWriter) (f : Flags) : (s.putFlags w f).ie = s.ie := rfl
@[simp] theorem State.putFlags_ira (w : FlagWriter) (f : Flags) : (s.putFlags w f).ira = s.ira := rfl
@[simp] theorem State.putFlags_mem (w : FlagWriter) (f : Flags) : (s.putFlags w f).mem = s.mem := rfl
@[simp] theorem State.putFlags_irqs (w : FlagWriter) (f : Flags) : (s.putFlags w f).irqs = s.irqs := rfl
@[simp] theorem State.putFlags_devLog (w : FlagWriter) (f : Flags) : (s.putFlags w f).devLog = s.devLog := rfl
@[simp] theorem State.putFlags_draw (w : FlagWriter) (f : Flags) : (s.putFlags w f).draw = s.draw := rfl
@[simp] theorem State.putFlags_cfg (w : FlagWriter) (f : Flags) : (s.putFlags w f).cfg = s.cfg := rfl
@[simp] theorem State.reg_putFlags (w : FlagWriter) (f : Flags) (q : Reg) : (s.putFlags w f).reg q = s.reg q := rfl
@[simp] theorem State.pair_putFlags (w : FlagWriter) (f : Flags) (q : Reg) : (s.putFlags w f).pair q = s.pair q := rfl
@[simp] theorem State.pc_putFlags (w : FlagWriter) (f : Flags) : (s.putFlags w f).pc = s.pc := rfl
@[simp] theorem State.byteAt_putFlags (w : FlagWriter) (f : Flags) (q : Word) : (s.putFlags w f).byteAt q = s.byteAt q := rfl
@[simp] theorem State.kindAt_putFlags (w : FlagWriter) (f : Flags) (q : Word) : (s.putFlags w f).kindAt q = s.kindAt q := rfl

/-! ### settleFlags -/

@[simp] theorem State.settleFlags_flags (w : FlagWriter) : (s.settleFlags w).flags = s.policyFlags w s.flags := rfl
@[simp] theorem State.settleFlags_ie (w : FlagWriter) : (s.settleFlags w).ie = s.ie := rfl
@[simp] theorem State.settleFlags_ira (w : FlagWriter) : (s.settleFlags w).ira = s.ira := rfl
@[simp] theorem State.settleFlags_mem (w : FlagWriter) : (s.settleFlags w).mem = s.mem := rfl
@[simp] theorem State.settleFlags_irqs (w : FlagWriter) : (s.settleFlags w).irqs = s.irqs := rfl
@[simp] theorem State.settleFlags_devLog (w : FlagWriter) : (s.settleFlags w).devLog = s.devLog := rfl
@[simp] theorem State.settleFlags_draw (w : FlagWriter) : (s.settleFlags w).draw = s.draw := rfl
@[simp] theorem State.settleFlags_cfg (w : FlagWriter) : (s.settleFlags w).cfg = s.cfg := rfl
@[simp] theorem State.reg_settleFlags (w : FlagWriter) (q : Reg) : (s.settleFlags w).reg q = s.reg q := rfl
@[simp] theorem State.pair_settleFlags (w : FlagWriter) (q : Reg) : (s.settleFlags w).pair q = s.pair q := rfl
@[simp] theorem State.pc_settleFlags (w : FlagWriter) : (s.settleFlags w).pc = s.pc := rfl
@[simp] theorem State.byteAt_settleFlags (w : FlagWriter) (q : Word) : (s.settleFlags w).byteAt q = s.byteAt q := rfl
@[simp] theorem State.kindAt_settleFlags (w : FlagWriter) (q : Word) : (s.settleFlags w).kindAt q = s.kindAt q := rfl

/-! ### putFlagsAdd -/

@[simp] theorem State.putFlagsAdd_flags (w : FlagWriter) (f : Flags) : (s.putFlagsAdd w f).flags = { s.policyFlags w f with c := f.c } := rfl
@[simp] theorem State.putFlagsAdd_ie (w : FlagWriter) (f : Flags) : (s.putFlagsAdd w f).ie = s.ie := rfl
@[simp] theorem State.putFlagsAdd_ira (w : FlagWriter) (f : Flags) : (s.putFlagsAdd w f).ira = s.ira := rfl
@[simp] theorem State.putFlagsAdd_mem (w : FlagWriter) (f : Flags) : (s.putFlagsAdd w f).mem = s.mem := rfl
@[simp] theorem State.putFlagsAdd_irqs (w : FlagWriter) (f : Flags) : (s.putFlagsAdd w f).irqs = s.irqs := rfl
@[simp] theorem State.putFlagsAdd_devLog (w : FlagWriter) (f : Flags) : (s.putFlagsAdd w f).devLog = s.devLog := rfl
@[simp] theorem State.putFlagsAdd_draw (w : FlagWriter) (f : Flags) : (s.putFlagsAdd w f).draw = s.draw := rfl
@[simp] theorem State.putFlagsAdd_cfg (w : FlagWriter) (f : Flags) : (s.putFlagsAdd w f).cfg = s.cfg := rfl
@[simp] theorem State.reg_putFlagsAdd (w : FlagWriter) (f : Flags) (q : Reg) : (s.putFlagsAdd w f).reg q = s.reg q := rfl
@[simp] theorem State.pair_putFlagsAdd (w : FlagWriter) (f : Flags) (q : Reg) : (s.putFlagsAdd w f).pair q = s.pair q := rfl
@[simp] theorem State.pc_putFlagsAdd (w : FlagWriter) (f : Flags) : (s.putFlagsAdd w f).pc = s.pc := rfl
@[simp] theorem State.byteAt_putFlagsAdd (w : FlagWriter) (f : Flags) (q : Word) : (s.putFlagsAdd w f).byteAt q = s.byteAt q := rfl
@[simp] theorem State.kindAt_putFlagsAdd (w : FlagWriter) (f : Flags) (q : Word) : (s.putFlagsAdd w f).kindAt q = s.kindAt q := rfl

/-! ### putFlagsCompare -/

@[simp] theorem State.putFlagsCompare_flags (w : FlagWriter) (f : Flags) :
    (s.putFlagsCompare w f).flags = { s.policyFlags w f with z := f.z, c := f.c } := rfl
@[simp] theorem State.putFlagsCompare_ie (w : FlagWriter) (f : Flags) : (s.putFlagsCompare w f).ie = s.ie := rfl
@[simp] theorem State.putFlagsCompare_ira (w : FlagWriter) (f : Flags) : (s.putFlagsCompare w f).ira = s.ira := rfl
@[simp] theorem State.putFlagsCompare_mem (w : FlagWriter) (f : Flags) : (s.putFlagsCompare w f).mem = s.mem := rfl
@[simp] theorem State.putFlagsCompare_irqs (w : FlagWriter) (f : Flags) : (s.putFlagsCompare w f).irqs = s.irqs := rfl
@[simp] theorem State.putFlagsCompare_devLog (w : FlagWriter) (f : Flags) : (s.putFlagsCompare w f).devLog = s.devLog := rfl
@[simp] theorem State.putFlagsCompare_draw (w : FlagWriter) (f : Flags) : (s.putFlagsCompare w f).draw = s.draw := rfl
@[simp] theorem State.putFlagsCompare_cfg (w : FlagWriter) (f : Flags) : (s.putFlagsCompare w f).cfg = s.cfg := rfl
@[simp] theorem State.reg_putFlagsCompare (w : FlagWriter) (f : Flags) (q : Reg) : (s.putFlagsCompare w f).reg q = s.reg q := rfl
@[simp] theorem State.pair_putFlagsCompare (w : FlagWriter) (f : Flags) (q : Reg) : (s.putFlagsCompare w f).pair q = s.pair q := rfl
@[simp] theorem State.pc_putFlagsCompare (w : FlagWriter) (f : Flags) : (s.putFlagsCompare w f).pc = s.pc := rfl
@[simp] theorem State.byteAt_putFlagsCompare (w : FlagWriter) (f : Flags) (q : Word) : (s.putFlagsCompare w f).byteAt q = s.byteAt q := rfl
@[simp] theorem State.kindAt_putFlagsCompare (w : FlagWriter) (f : Flags) (q : Word) : (s.putFlagsCompare w f).kindAt q = s.kindAt q := rfl

/-! ### putReg -/

@[simp] theorem State.putReg_flags (w : FlagWriter) (a : Reg) (r : Byte) (f : Flags) : (s.putReg w a r f).flags = s.policyFlags w f := rfl
@[simp] theorem State.putReg_ie (w : FlagWriter) (a : Reg) (r : Byte) (f : Flags) : (s.putReg w a r f).ie = s.ie := rfl
@[simp] theorem State.putReg_ira (w : FlagWriter) (a : Reg) (r : Byte) (f : Flags) : (s.putReg w a r f).ira = s.ira := rfl
@[simp] theorem State.putReg_mem (w : FlagWriter) (a : Reg) (r : Byte) (f : Flags) : (s.putReg w a r f).mem = s.mem := rfl
@[simp] theorem State.putReg_irqs (w : FlagWriter) (a : Reg) (r : Byte) (f : Flags) : (s.putReg w a r f).irqs = s.irqs := rfl
@[simp] theorem State.putReg_devLog (w : FlagWriter) (a : Reg) (r : Byte) (f : Flags) : (s.putReg w a r f).devLog = s.devLog := rfl
@[simp] theorem State.putReg_draw (w : FlagWriter) (a : Reg) (r : Byte) (f : Flags) : (s.putReg w a r f).draw = s.draw := rfl
@[simp] theorem State.putReg_cfg (w : FlagWriter) (a : Reg) (r : Byte) (f : Flags) : (s.putReg w a r f).cfg = s.cfg := rfl
@[simp] theorem State.byteAt_putReg (w : FlagWriter) (a : Reg) (r : Byte) (f : Flags) (q : Word) :
    (s.putReg w a r f).byteAt q = s.byteAt q := rfl
@[simp] theorem State.kindAt_putReg (w : FlagWriter) (a : Reg) (r : Byte) (f : Flags) (q : Word) :
    (s.putReg w a r f).kindAt q = s.kindAt q := rfl

/-! ### putPair -/

@[simp] theorem State.putPair_flags (w : FlagWriter) (a : Reg) (r : Word) (f : Flags) : (s.putPair w a r f).flags = s.policyFlags w f := rfl
@[simp] theorem State.putPair_ie (w : FlagWriter) (a : Reg) (r : Word) (f : Flags) : (s.putPair w a r f).ie = s.ie := rfl
@[simp] theorem State.putPair_ira (w : FlagWriter) (a : Reg) (r : Word) (f : Flags) : (s.putPair w a r f).ira = s.ira := rfl
@[simp] theorem State.putPair_mem (w : FlagWriter) (a : Reg) (r : Word) (f : Flags) : (s.putPair w a r f).mem = s.mem := rfl
@[simp] theorem State.putPair_irqs (w : FlagWriter) (a : Reg) (r : Word) (f : Flags) : (s.putPair w a r f).irqs = s.irqs := rfl
@[simp] theorem State.putPair_devLog (w : FlagWriter) (a : Reg) (r : Word) (f : Flags) : (s.putPair w a r f).devLog = s.devLog := rfl
@[simp] theorem State.putPair_draw (w : FlagWriter) (a : Reg) (r : Word) (f : Flags) : (s.putPair w a r f).draw = s.draw := rfl
@[simp] theorem State.putPair_cfg (w : FlagWriter) (a : Reg) (r : Word) (f : Flags) : (s.putPair w a r f).cfg = s.cfg := rfl
@[simp] theorem State.byteAt_putPair (w : FlagWriter) (a : Reg) (r : Word) (f : Flags) (q : Word) :
    (s.putPair w a r f).byteAt q = s.byteAt q := rfl
@[simp] theorem State.kindAt_putPair (w : FlagWriter) (a : Reg) (r : Word) (f : Flags) (q : Word) :
    (s.putPair w a r f).kindAt q = s.kindAt q := rfl

/-! ### putRegNz -/

@[simp] theorem State.putRegNz_flags (w : FlagWriter) (a : Reg) (r : Byte) : (s.putRegNz w a r).flags = s.policyFlags w (nzW r s.flags) := rfl
@[simp] theorem State.putRegNz_ie (w : FlagWriter) (a : Reg) (r : Byte) : (s.putRegNz w a r).ie = s.ie := rfl
@[simp] theorem State.putRegNz_ira (w : FlagWriter) (a : Reg) (r : Byte) : (s.putRegNz w a r).ira = s.ira := rfl
@[simp] theorem State.putRegNz_mem (w : FlagWriter) (a : Reg) (r : Byte) : (s.putRegNz w a r).mem = s.mem := rfl
@[simp] theorem State.putRegNz_irqs (w : FlagWriter) (a : Reg) (r : Byte) : (s.putRegNz w a r).irqs = s.irqs := rfl
@[simp] theorem State.putRegNz_devLog (w : FlagWriter) (a : Reg) (r : Byte) : (s.putRegNz w a r).devLog = s.devLog := rfl
@[simp] theorem State.putRegNz_draw (w : FlagWriter) (a : Reg) (r : Byte) : (s.putRegNz w a r).draw = s.draw := rfl
@[simp] theorem State.putRegNz_cfg (w : FlagWriter) (a : Reg) (r : Byte) : (s.putRegNz w a r).cfg = s.cfg := rfl
@[simp] theorem State.byteAt_putRegNz (w : FlagWriter) (a : Reg) (r : Byte) (q : Word) : (s.putRegNz w a r).byteAt q = s.byteAt q := rfl
@[simp] theorem State.kindAt_putRegNz (w : FlagWriter) (a : Reg) (r : Byte) (q : Word) : (s.putRegNz w a r).kindAt q = s.kindAt q := rfl

/-! ### putPairNz -/

@[simp] theorem State.putPairNz_flags (w : FlagWriter) (a : Reg) (r : Word) : (s.putPairNz w a r).flags = s.policyFlags w (nzW r s.flags) := rfl
@[simp] theorem State.putPairNz_ie (w : FlagWriter) (a : Reg) (r : Word) : (s.putPairNz w a r).ie = s.ie := rfl
@[simp] theorem State.putPairNz_ira (w : FlagWriter) (a : Reg) (r : Word) : (s.putPairNz w a r).ira = s.ira := rfl
@[simp] theorem State.putPairNz_mem (w : FlagWriter) (a : Reg) (r : Word) : (s.putPairNz w a r).mem = s.mem := rfl
@[simp] theorem State.putPairNz_irqs (w : FlagWriter) (a : Reg) (r : Word) : (s.putPairNz w a r).irqs = s.irqs := rfl
@[simp] theorem State.putPairNz_devLog (w : FlagWriter) (a : Reg) (r : Word) : (s.putPairNz w a r).devLog = s.devLog := rfl
@[simp] theorem State.putPairNz_draw (w : FlagWriter) (a : Reg) (r : Word) : (s.putPairNz w a r).draw = s.draw := rfl
@[simp] theorem State.putPairNz_cfg (w : FlagWriter) (a : Reg) (r : Word) : (s.putPairNz w a r).cfg = s.cfg := rfl
@[simp] theorem State.byteAt_putPairNz (w : FlagWriter) (a : Reg) (r : Word) (q : Word) : (s.putPairNz w a r).byteAt q = s.byteAt q := rfl
@[simp] theorem State.kindAt_putPairNz (w : FlagWriter) (a : Reg) (r : Word) (q : Word) : (s.putPairNz w a r).kindAt q = s.kindAt q := rfl

/-! ### putSum8 -/

@[simp] theorem State.putSum8_flags (w : FlagWriter) (a : Reg) (r : Byte × Flags) :
    (s.putSum8 w a r).flags = { s.policyFlags w r.2 with c := r.2.c } := rfl
@[simp] theorem State.putSum8_ie (w : FlagWriter) (a : Reg) (r : Byte × Flags) : (s.putSum8 w a r).ie = s.ie := rfl
@[simp] theorem State.putSum8_ira (w : FlagWriter) (a : Reg) (r : Byte × Flags) : (s.putSum8 w a r).ira = s.ira := rfl
@[simp] theorem State.putSum8_mem (w : FlagWriter) (a : Reg) (r : Byte × Flags) : (s.putSum8 w a r).mem = s.mem := rfl
@[simp] theorem State.putSum8_irqs (w : FlagWriter) (a : Reg) (r : Byte × Flags) : (s.putSum8 w a r).irqs = s.irqs := rfl
@[simp] theorem State.putSum8_devLog (w : FlagWriter) (a : Reg) (r : Byte × Flags) : (s.putSum8 w a r).devLog = s.devLog := rfl
@[simp] theorem State.putSum8_draw (w : FlagWriter) (a : Reg) (r : Byte × Flags) : (s.putSum8 w a r).draw = s.draw := rfl
@[simp] theorem State.putSum8_cfg (w : FlagWriter) (a : Reg) (r : Byte × Flags) : (s.putSum8 w a r).cfg = s.cfg := rfl
@[simp] theorem State.byteAt_putSum8 (w : FlagWriter) (a : Reg) (r : Byte × Flags) (q : Word) : (s.putSum8 w a r).byteAt q = s.byteAt q := rfl
@[simp] theorem State.kindAt_putSum8 (w : FlagWriter) (a : Reg) (r : Byte × Flags) (q : Word) : (s.putSum8 w a r).kindAt q = s.kindAt q := rfl

/-! ### putSum16 -/

@[simp] theorem State.putSum16_flags (w : FlagWriter) (a : Reg) (r : Word × Flags) : (s.putSum16 w a r).flags = s.policyFlags w r.2 := rfl
@[simp] theorem State.putSum16_ie (w : FlagWriter) (a : Reg) (r : Word × Flags) : (s.putSum16 w a r).ie = s.ie := rfl
@[simp] theorem State.putSum16_ira (w : FlagWriter) (a : Reg) (r : Word × Flags) : (s.putSum16 w a r).ira = s.ira := rfl
@[simp] theorem State.putSum16_mem (w : FlagWriter) (a : Reg) (r : Word × Flags) : (s.putSum16 w a r).mem = s.mem := rfl
@[simp] theorem State.putSum16_irqs (w : FlagWriter) (a : Reg) (r : Word × Flags) : (s.putSum16 w a r).irqs = s.irqs := rfl
@[simp] theorem State.putSum16_devLog (w : FlagWriter) (a : Reg) (r : Word × Flags) : (s.putSum16 w a r).devLog = s.devLog := rfl
@[simp] theorem State.putSum16_draw (w : FlagWriter) (a : Reg) (r : Word × Flags) : (s.putSum16 w a r).draw = s.draw := rfl
@[simp] theorem State.putSum16_cfg (w : FlagWriter) (a : Reg) (r : Word × Flags) : (s.putSum16 w a r).cfg = s.cfg := rfl
@[simp] theorem State.byteAt_putSum16 (w : FlagWriter) (a : Reg) (r : Word × Flags) (q : Word) : (s.putSum16 w a r).byteAt q = s.byteAt q := rfl
@[simp] theorem State.kindAt_putSum16 (w : FlagWriter) (a : Reg) (r : Word × Flags) (q : Word) : (s.putSum16 w a r).kindAt q = s.kindAt q := rfl

/-! ### putRotated8 -/

@[simp] theorem State.putRotated8_flags (w : FlagWriter) (a : Reg) (r : Byte) (out : Bool) :
    (s.putRotated8 w a r out).flags = { s.policyFlags w { nzW r s.flags with c := out } with c := out } := rfl
@[simp] theorem State.putRotated8_ie (w : FlagWriter) (a : Reg) (r : Byte) (out : Bool) : (s.putRotated8 w a r out).ie = s.ie := rfl
@[simp] theorem State.putRotated8_ira (w : FlagWriter) (a : Reg) (r : Byte) (out : Bool) : (s.putRotated8 w a r out).ira = s.ira := rfl
@[simp] theorem State.putRotated8_mem (w : FlagWriter) (a : Reg) (r : Byte) (out : Bool) : (s.putRotated8 w a r out).mem = s.mem := rfl
@[simp] theorem State.putRotated8_irqs (w : FlagWriter) (a : Reg) (r : Byte) (out : Bool) : (s.putRotated8 w a r out).irqs = s.irqs := rfl
@[simp] theorem State.putRotated8_devLog (w : FlagWriter) (a : Reg) (r : Byte) (out : Bool) : (s.putRotated8 w a r out).devLog = s.devLog := rfl
@[simp] theorem State.putRotated8_draw (w : FlagWriter) (a : Reg) (r : Byte) (out : Bool) : (s.putRotated8 w a r out).draw = s.draw := rfl
@[simp] theorem State.putRotated8_cfg (w : FlagWriter) (a : Reg) (r : Byte) (out : Bool) : (s.putRotated8 w a r out).cfg = s.cfg := rfl
@[simp] theorem State.byteAt_putRotated8 (w : FlagWriter) (a : Reg) (r : Byte) (out : Bool) (q : Word) :
    (s.putRotated8 w a r out).byteAt q = s.byteAt q := rfl
@[simp] theorem State.kindAt_putRotated8 (w : FlagWriter) (a : Reg) (r : Byte) (out : Bool) (q : Word) :
    (s.putRotated8 w a r out).kindAt q = s.kindAt q := rfl

/-! ### putRotated16 -/

@[simp] theorem State.putRotated16_flags (w : FlagWriter) (a : Reg) (r : Word) (out : Bool) :
    (s.putRotated16 w a r out).flags = { s.policyFlags w { nzW r s.flags with c := out } with c := out } := rfl
@[simp] theorem State.putRotated16_ie (w : FlagWriter) (a : Reg) (r : Word) (out : Bool) : (s.putRotated16 w a r out).ie = s.ie := rfl
@[simp] theorem State.putRotated16_ira (w : FlagWriter) (a : Reg) (r : Word) (out : Bool) : (s.putRotated16 w a r out).ira = s.ira := rfl
@[simp] theorem State.putRotated16_mem (w : FlagWriter) (a : Reg) (r : Word) (out : Bool) : (s.putRotated16 w a r out).mem = s.mem := rfl
@[simp] theorem State.putRotated16_irqs (w : FlagWriter) (a : Reg) (r : Word) (out : Bool) : (s.putRotated16 w a r out).irqs = s.irqs := rfl
@[simp] theorem State.putRotated16_devLog (w : FlagWriter) (a : Reg) (r : Word) (out : Bool) :
    (s.putRotated16 w a r out).devLog = s.devLog := rfl
@[simp] theorem State.putRotated16_draw (w : FlagWriter) (a : Reg) (r : Word) (out : Bool) : (s.putRotated16 w a r out).draw = s.draw := rfl
@[simp] theorem State.putRotated16_cfg (w : FlagWriter) (a : Reg) (r : Word) (out : Bool) : (s.putRotated16 w a r out).cfg = s.cfg := rfl
@[simp] theorem State.byteAt_putRotated16 (w : FlagWriter) (a : Reg) (r : Word) (out : Bool) (q : Word) :
    (s.putRotated16 w a r out).byteAt q = s.byteAt q := rfl
@[simp] theorem State.kindAt_putRotated16 (w : FlagWriter) (a : Reg) (r : Word) (out : Bool) (q : Word) :
    (s.putRotated16 w a r out).kindAt q = s.kindAt q := rfl

/-! ### setByte -/

@[simp] theorem State.setByte_flags (a : Word) (v : Byte) : (s.setByte a v).flags = s.flags := rfl
@[simp] theorem State.setByte_ie (a : Word) (v : Byte) : (s.setByte a v).ie = s.ie := rfl
@[simp] theorem State.setByte_ira (a : Word) (v : Byte) : (s.setByte a v).ira = s.ira := rfl
@[simp] theorem State.setByte_mem (a : Word) (v : Byte) : (s.setByte a v).mem = Memory.write s.mem a.toNat v := rfl
@[simp] theorem State.setByte_irqs (a : Word) (v : Byte) : (s.setByte a v).irqs = s.irqs := rfl
@[simp] theorem State.setByte_devLog (a : Word) (v : Byte) : (s.setByte a v).devLog = s.devLog := rfl
@[simp] theorem State.setByte_draw (a : Word) (v : Byte) : (s.setByte a v).draw = s.draw := rfl
@[simp] theorem State.setByte_cfg (a : Word) (v : Byte) : (s.setByte a v).cfg = s.cfg := rfl
@[simp] theorem State.reg_setByte (a : Word) (v : Byte) (q : Reg) : (s.setByte a v).reg q = s.reg q := rfl
@[simp] theorem State.pair_setByte (a : Word) (v : Byte) (q : Reg) : (s.setByte a v).pair q = s.pair q := rfl
@[simp] theorem State.pc_setByte (a : Word) (v : Byte) : (s.setByte a v).pc = s.pc := rfl
@[simp] theorem State.policyFlags_setByte (a : Word) (v : Byte) (u : FlagWriter) (g : Flags) :
    (s.setByte a v).policyFlags u g = s.policyFlags u g := rfl
@[simp] theorem State.kindAt_setByte (a : Word) (v : Byte) (q : Word) : (s.setByte a v).kindAt q = s.kindAt q := rfl

/-! ### logDevice -/

@[simp] theorem State.logDevice_flags (d : DeviceAccess) : (s.logDevice d).flags = s.flags := rfl
@[simp] theorem State.logDevice_ie (d : DeviceAccess) : (s.logDevice d).ie = s.ie := rfl
@[simp] theorem State.logDevice_ira (d : DeviceAccess) : (s.logDevice d).ira = s.ira := rfl
@[simp] theorem State.logDevice_mem (d : DeviceAccess) : (s.logDevice d).mem = s.mem := rfl
@[simp] theorem State.logDevice_irqs (d : DeviceAccess) : (s.logDevice d).irqs = s.irqs := rfl
@[simp] theorem State.logDevice_devLog (d : DeviceAccess) : (s.logDevice d).devLog = d :: s.devLog := rfl
@[simp] theorem State.logDevice_draw (d : DeviceAccess) : (s.logDevice d).draw = s.draw := rfl
@[simp] theorem State.logDevice_cfg (d : DeviceAccess) : (s.logDevice d).cfg = s.cfg := rfl
@[simp] theorem State.reg_logDevice (d : DeviceAccess) (q : Reg) : (s.logDevice d).reg q = s.reg q := rfl
@[simp] theorem State.pair_logDevice (d : DeviceAccess) (q : Reg) : (s.logDevice d).pair q = s.pair q := rfl
@[simp] theorem State.pc_logDevice (d : DeviceAccess) : (s.logDevice d).pc = s.pc := rfl
@[simp] theorem State.byteAt_logDevice (d : DeviceAccess) (q : Word) : (s.logDevice d).byteAt q = s.byteAt q := rfl
@[simp] theorem State.policyFlags_logDevice (d : DeviceAccess) (u : FlagWriter) (g : Flags) :
    (s.logDevice d).policyFlags u g = s.policyFlags u g := rfl
@[simp] theorem State.kindAt_logDevice (d : DeviceAccess) (q : Word) : (s.logDevice d).kindAt q = s.kindAt q := rfl

/-! ### sampled -/

@[simp] theorem State.sampled_flags : (s.sampled).flags = s.flags := rfl
@[simp] theorem State.sampled_ie : (s.sampled).ie = s.ie := rfl
@[simp] theorem State.sampled_ira : (s.sampled).ira = s.ira := rfl
@[simp] theorem State.sampled_mem : (s.sampled).mem = s.mem := rfl
@[simp] theorem State.sampled_irqs : (s.sampled).irqs = s.irqs.tail := rfl
@[simp] theorem State.sampled_devLog : (s.sampled).devLog = s.devLog := rfl
@[simp] theorem State.sampled_draw : (s.sampled).draw = s.draw + 1 := rfl
@[simp] theorem State.sampled_cfg : (s.sampled).cfg = s.cfg := rfl
@[simp] theorem State.reg_sampled (q : Reg) : (s.sampled).reg q = s.reg q := rfl
@[simp] theorem State.pair_sampled (q : Reg) : (s.sampled).pair q = s.pair q := rfl
@[simp] theorem State.pc_sampled : (s.sampled).pc = s.pc := rfl
@[simp] theorem State.byteAt_sampled (q : Word) : (s.sampled).byteAt q = s.byteAt q := rfl
@[simp] theorem State.kindAt_sampled (q : Word) : (s.sampled).kindAt q = s.kindAt q := rfl

/-! ### takeInterrupt -/

@[simp] theorem State.takeInterrupt_flags : (s.takeInterrupt).flags = s.policyFlags .interruptEntry s.flags := rfl
@[simp] theorem State.takeInterrupt_ie : (s.takeInterrupt).ie = false := rfl
@[simp] theorem State.takeInterrupt_ira : (s.takeInterrupt).ira = s.pc := rfl
@[simp] theorem State.takeInterrupt_mem : (s.takeInterrupt).mem = s.mem := rfl
@[simp] theorem State.takeInterrupt_irqs : (s.takeInterrupt).irqs = s.irqs := rfl
@[simp] theorem State.takeInterrupt_devLog : (s.takeInterrupt).devLog = s.devLog := rfl
@[simp] theorem State.takeInterrupt_draw : (s.takeInterrupt).draw = s.draw := rfl
@[simp] theorem State.takeInterrupt_cfg : (s.takeInterrupt).cfg = s.cfg := rfl
@[simp] theorem State.byteAt_takeInterrupt (q : Word) : (s.takeInterrupt).byteAt q = s.byteAt q := rfl
@[simp] theorem State.kindAt_takeInterrupt (q : Word) : (s.takeInterrupt).kindAt q = s.kindAt q := rfl

/-! ### returnFromInterrupt -/

@[simp] theorem State.returnFromInterrupt_flags : (s.returnFromInterrupt).flags = s.policyFlags (.g2 .reti) s.flags := rfl
@[simp] theorem State.returnFromInterrupt_ie : (s.returnFromInterrupt).ie = true := rfl
@[simp] theorem State.returnFromInterrupt_ira : (s.returnFromInterrupt).ira = s.ira := rfl
@[simp] theorem State.returnFromInterrupt_mem : (s.returnFromInterrupt).mem = s.mem := rfl
@[simp] theorem State.returnFromInterrupt_irqs : (s.returnFromInterrupt).irqs = s.irqs := rfl
@[simp] theorem State.returnFromInterrupt_devLog : (s.returnFromInterrupt).devLog = s.devLog := rfl
@[simp] theorem State.returnFromInterrupt_draw : (s.returnFromInterrupt).draw = s.draw := rfl
@[simp] theorem State.returnFromInterrupt_cfg : (s.returnFromInterrupt).cfg = s.cfg := rfl
@[simp] theorem State.byteAt_returnFromInterrupt (q : Word) : (s.returnFromInterrupt).byteAt q = s.byteAt q := rfl
@[simp] theorem State.kindAt_returnFromInterrupt (q : Word) : (s.returnFromInterrupt).kindAt q = s.kindAt q := rfl

end Sys2Proof.Machine
end

