-- ==== Sys2Proof/Laws/Flags.lean ====
section
/-! SUPPORT. FLAG_POLICY: what a row does to the flags, and what the rows of the default table are. -/

namespace Sys2Proof.Machine

/-! ### What the rows of R31 do -/

@[simp] theorem flagsAfter_adder (d f old : Flags) : flagsAfter .adder d f old = f := rfl
@[simp] theorem flagsAfter_nz (d f old : Flags) : flagsAfter .nz d f old = { old with n := f.n, z := f.z } := rfl
@[simp] theorem flagsAfter_rotate (d f old : Flags) : flagsAfter .rotate d f old = { f with v := old.v } := rfl
@[simp] theorem flagsAfter_unchanged (d f old : Flags) : flagsAfter .unchanged d f old = old := rfl

/-! ### Under the default table: the row of a writer is known by evaluation, `rfl` -/

variable {s : State} (h : DefaultFlags s) {w : FlagWriter}
include h

/-- Under the default table the flags are those of the writer's row of R31. -/
theorem State.policyFlags_default {row : FlagRow} (hw : FlagPolicy.default.row w = row) (f : Flags) :
    s.policyFlags w f = flagsAfter row s.drawnFlags f s.flags := by
  rw [State.policyFlags, show s.cfg.flagPolicy = FlagPolicy.default from h, hw]

theorem State.policyFlags_adder (hw : FlagPolicy.default.row w = .adder) (f : Flags) : s.policyFlags w f = f :=
  State.policyFlags_default h hw f

theorem State.policyFlags_nz (hw : FlagPolicy.default.row w = .nz) (f : Flags) :
    s.policyFlags w f = { s.flags with n := f.n, z := f.z } := State.policyFlags_default h hw f

theorem State.policyFlags_rotate (hw : FlagPolicy.default.row w = .rotate) (f : Flags) :
    s.policyFlags w f = { f with v := s.flags.v } := State.policyFlags_default h hw f

theorem State.policyFlags_unchanged (hw : FlagPolicy.default.row w = .unchanged) (f : Flags) : s.policyFlags w f = s.flags :=
  State.policyFlags_default h hw f

end Sys2Proof.Machine
end

