-- ==== Sys2Proof/Laws/Registers.lean ====
section
/-! SUPPORT. Registers, pairs and the bytes of a word: reading after writing. -/

namespace Sys2Proof

/-! ### Bytes of a word -/

@[simp] theorem Word.ofBytes_high_low (w : Word) : Word.ofBytes w.high w.low = w := by
  apply BitVec.eq_of_toNat_eq
  have := w.isLt
  simp only [Word.ofBytes, Word.high, Word.low, BitVec.toNat_ofNat]
  omega

@[simp] theorem Word.high_ofBytes (h l : Byte) : (Word.ofBytes h l).high = h := by
  apply BitVec.eq_of_toNat_eq
  have := h.isLt
  have := l.isLt
  simp only [Word.ofBytes, Word.high, BitVec.toNat_ofNat]
  omega

@[simp] theorem Word.low_ofBytes (h l : Byte) : (Word.ofBytes h l).low = l := by
  apply BitVec.eq_of_toNat_eq
  have := h.isLt
  have := l.isLt
  simp only [Word.ofBytes, Word.low, BitVec.toNat_ofNat]
  omega

theorem Word.ofBytes_inj {h l h' l' : Byte} : Word.ofBytes h l = Word.ofBytes h' l' ↔ h = h' ∧ l = l' :=
  ⟨fun e => ⟨by simpa using congrArg Word.high e, by simpa using congrArg Word.low e⟩, by rintro ⟨rfl, rfl⟩; rfl⟩

/-- Two different addresses are two different keys of the memory. -/
theorem Word.toNat_ne {a b : Word} (h : a ≠ b) : a.toNat ≠ b.toNat := fun e => h (BitVec.eq_of_toNat_eq e)

/-- The two bytes of a 16-bit access lie at two addresses. -/
theorem Word.add_one_ne (a : Word) : a + 1#16 ≠ a := by bv_omega

namespace Machine

/-! ### Pairs of register numbers -/

@[simp] theorem pairHi_ne_pairLo (x y : Reg) : pairHi x ≠ pairLo y := by
  simp only [ne_eq, Fin.ext_iff, pairHi, pairLo]; omega

@[simp] theorem pairLo_ne_pairHi (x y : Reg) : pairLo x ≠ pairHi y := fun h => pairHi_ne_pairLo y x h.symm

theorem pairLo_eq_iff {x y : Reg} : pairLo x = pairLo y ↔ pairHi x = pairHi y := by
  simp only [Fin.ext_iff, pairHi, pairLo]; omega

@[simp] theorem pairHi_pcPair : pairHi pcPair = 14 := rfl
@[simp] theorem pairLo_pcPair : pairLo pcPair = 15 := rfl
@[simp] theorem pairHi_lrPair : pairHi lrPair = 12 := rfl
@[simp] theorem pairLo_lrPair : pairLo lrPair = 13 := rfl

/-- A register is one of the two of its pair. -/
theorem eq_pairHi_or_pairLo (x : Reg) : x = pairHi x ∨ x = pairLo x := by
  simp only [Fin.ext_iff, pairHi, pairLo]; omega

/-! ### Reading after writing -/

variable (s : State)

theorem State.reg_setReg (i j : Reg) (v : Byte) : (s.setReg i v).reg j = if j = i then v else s.reg j := by
  simp only [State.reg, State.setReg, Fin.getElem_fin, Vector.getElem_set, Fin.ext_iff, eq_comm]

@[simp] theorem State.reg_setReg_same (i : Reg) (v : Byte) : (s.setReg i v).reg i = v := by simp [State.reg_setReg]

theorem State.reg_setReg_ne {i j : Reg} (h : j ≠ i) (v : Byte) : (s.setReg i v).reg j = s.reg j := by
  simp [State.reg_setReg, h]

theorem State.reg_setPair (x r : Reg) (v : Word) :
    (s.setPair x v).reg r = if r = pairHi x then v.high else if r = pairLo x then v.low else s.reg r := by
  simp only [State.setPair, State.reg_setReg]
  by_cases h : r = pairLo x
  · subst h; simp
  · simp [h]

@[simp] theorem State.reg_setPair_hi (x : Reg) (v : Word) : (s.setPair x v).reg (pairHi x) = v.high := by
  simp [State.reg_setPair]

@[simp] theorem State.reg_setPair_lo (x : Reg) (v : Word) : (s.setPair x v).reg (pairLo x) = v.low := by
  simp [State.reg_setPair]

theorem State.reg_setPair_ne {x r : Reg} (h : r ≠ pairHi x) (h' : r ≠ pairLo x) (v : Word) :
    (s.setPair x v).reg r = s.reg r := by simp [State.reg_setPair, h, h']

theorem State.pair_setPair (x y : Reg) (v : Word) :
    (s.setPair x v).pair y = if pairHi y = pairHi x then v else s.pair y := by
  by_cases h : pairHi y = pairHi x
  · have h' := pairLo_eq_iff.mpr h
    simp [State.pair, State.reg_setPair, h, h']
  · have h' : pairLo y ≠ pairLo x := fun e => h (pairLo_eq_iff.mp e)
    simp [State.pair, State.reg_setPair, h, h']

@[simp] theorem State.pair_setPair_same (x : Reg) (v : Word) : (s.setPair x v).pair x = v := by
  simp [State.pair_setPair]

/-- A pair after a write to one register. -/
theorem State.pair_setReg (x i : Reg) (v : Byte) :
    (s.setReg i v).pair x =
      Word.ofBytes (if pairHi x = i then v else s.reg (pairHi x)) (if pairLo x = i then v else s.reg (pairLo x)) := by
  simp [State.pair, State.reg_setReg]

@[simp] theorem State.pc_setPc (t : Word) : (s.setPc t).pc = t := by simp [State.setPc, State.pc]

@[simp] theorem State.lr_setLr (t : Word) : (s.setLr t).lr = t := by simp [State.setLr, State.lr]

theorem State.high_pair (x : Reg) : (s.pair x).high = s.reg (pairHi x) := by simp [State.pair]

theorem State.low_pair (x : Reg) : (s.pair x).low = s.reg (pairLo x) := by simp [State.pair]

/-- Of two writes to one pair the second stays. -/
theorem State.setPair_setPair (x : Reg) (v w : Word) : (s.setPair x v).setPair x w = s.setPair x w := by
  simp only [State.setPair, State.setReg, State.mk.injEq, and_true]
  ext i hi
  simp only [Vector.getElem_set]
  split <;> simp_all

/-- Writing back what a register holds changes nothing. -/
theorem State.setReg_reg (i : Reg) : s.setReg i (s.reg i) = s := by
  cases s; simp [State.setReg, State.reg]

/-- Writing back what a pair holds changes nothing. -/
theorem State.setPair_pair (x : Reg) : s.setPair x (s.pair x) = s := by
  have h : s.setReg (pairHi x) (s.pair x).high = s := by rw [State.high_pair, State.setReg_reg]
  rw [State.setPair, h, State.low_pair, State.setReg_reg]

end Machine

end Sys2Proof
end

