-- ==== Sys2Proof/Laws/Memory.lean ====
section
/-! SUPPORT. Memory: reading after writing, the canonical form, and what the access operations can do. -/

namespace Sys2Proof.Machine

/-! ### The list of cells -/

theorem Memory.read?_write (m : Memory) (a b : Nat) (v : Byte) :
    Memory.read? (Memory.write m a v) b = if b = a then some v else Memory.read? m b := by
  induction m with
  | nil => simp [Memory.write, Memory.read?]
  | cons p m ih =>
    obtain ⟨c, u⟩ := p
    unfold Memory.write
    by_cases h1 : a < c
    · simp [h1, Memory.read?]
    · by_cases h2 : a = c
      · subst h2
        by_cases h3 : b = a <;> simp [Memory.read?, h3]
      · simp only [h1, h2, if_false, Memory.read?]
        by_cases h3 : b = c
        · simp [h3, Ne.symm h2]
        · simp [h3, ih]

/-- The addresses of a memory after a write are those before and the one written. -/
theorem Memory.mem_write_fst {m : Memory} {a : Nat} {v : Byte} {p : Host.Cell} (h : p ∈ Memory.write m a v) :
    p.1 = a ∨ p ∈ m := by
  induction m with
  | nil => simp only [Memory.write, List.mem_singleton] at h; exact .inl (by rw [h])
  | cons q m ih =>
    obtain ⟨c, u⟩ := q
    unfold Memory.write at h
    split at h
    · rcases List.mem_cons.mp h with rfl | h
      · exact .inl rfl
      · exact .inr h
    · split at h
      · rcases List.mem_cons.mp h with rfl | h
        · exact .inl rfl
        · exact .inr (List.mem_cons_of_mem _ h)
      · rcases List.mem_cons.mp h with rfl | h
        · exact .inr List.mem_cons_self
        · rcases ih h with h | h
          · exact .inl h
          · exact .inr (List.mem_cons_of_mem _ h)

theorem Memory.pairwise_write {m : Memory} (a : Nat) (v : Byte) (h : m.Pairwise fun p q => p.1 < q.1) :
    (Memory.write m a v).Pairwise fun p q => p.1 < q.1 := by
  induction m with
  | nil => simp [Memory.write]
  | cons q m ih =>
    obtain ⟨c, u⟩ := q
    obtain ⟨h1, h2⟩ := List.pairwise_cons.mp h
    unfold Memory.write
    split
    · rename_i hlt
      refine List.pairwise_cons.mpr ⟨fun p hp => ?_, h⟩
      rcases List.mem_cons.mp hp with rfl | hp
      · exact hlt
      · exact lt_trans hlt (h1 p hp)
    · split
      · rename_i heq
        subst heq
        exact List.pairwise_cons.mpr ⟨h1, h2⟩
      · rename_i hlt hne
        refine List.pairwise_cons.mpr ⟨fun p hp => ?_, ih h2⟩
        rcases Memory.mem_write_fst hp with e | hp
        · show c < p.1
          omega
        · exact h1 p hp

theorem Memory.wf_iff {m : Memory} :
    Memory.wf m = true ↔ (m.Pairwise fun p q => p.1 < q.1) ∧ ∀ p ∈ m, p.1 < 65536 := by
  simp [Memory.wf, List.all_eq_true]

/-- The write of a byte keeps the canonical form. -/
theorem Memory.wf_write {m : Memory} {a : Nat} (ha : a < 65536) (v : Byte) (h : Memory.wf m = true) :
    Memory.wf (Memory.write m a v) = true := by
  obtain ⟨h1, h2⟩ := Memory.wf_iff.mp h
  refine Memory.wf_iff.mpr ⟨Memory.pairwise_write a v h1, fun p hp => ?_⟩
  rcases Memory.mem_write_fst hp with e | hp
  · omega
  · exact h2 p hp

/-! ### Cells of a state -/

variable (s : State)

theorem State.byteAt_setByte (a b : Word) (v : Byte) :
    (s.setByte a v).byteAt b = if b = a then v else s.byteAt b := by
  by_cases h : b = a
  · subst h; simp [State.byteAt, Memory.read?_write]
  · have := Word.toNat_ne h
    simp [State.byteAt, Memory.read?_write, this, h]

/-- The cell write keeps the canonical form. -/
theorem State.wf_setByte (a : Word) (v : Byte) (h : Memory.wf s.mem = true) :
    Memory.wf (s.setByte a v).mem = true := Memory.wf_write a.isLt v h

/-! ### Loads and stores: everything they can do -/

/-- A load of a byte: a plain cell gives its content and changes nothing; a device gives its free byte and is recorded; nothing at the
address refuses. -/
theorem State.load8_cases (a : Word) :
    ((s.kindAt a = .ram ∨ s.kindAt a = .rom) ∧ s.load8 a = .ok (s.byteAt a, s)) ∨
    (s.kindAt a = .device ∧ s.load8 a = .ok (Config.deviceByte s.devLog a, s.logDevice (.read a))) ∨
    (s.kindAt a = .none ∧ s.load8 a = .error (.unmapped a)) := by
  unfold State.load8
  cases h : s.kindAt a <;> simp

/-- A store of a byte: ram takes it, rom ignores it, a device is recorded, nothing at the address refuses. -/
theorem State.store8_cases (a : Word) (v : Byte) :
    (s.kindAt a = .ram ∧ s.store8 a v = .ok (s.setByte a v)) ∨
    (s.kindAt a = .rom ∧ s.store8 a v = .ok s) ∨
    (s.kindAt a = .device ∧ s.store8 a v = .ok (s.logDevice (.write a v))) ∨
    (s.kindAt a = .none ∧ s.store8 a v = .error (.unmapped a)) := by
  unfold State.store8
  cases h : s.kindAt a <;> simp

theorem State.load8_plain {a : Word} (h : s.kindAt a = .ram ∨ s.kindAt a = .rom) : s.load8 a = .ok (s.byteAt a, s) := by
  unfold State.load8
  rcases h with h | h <;> simp [h]

theorem State.load8_device {a : Word} (h : s.kindAt a = .device) :
    s.load8 a = .ok (Config.deviceByte s.devLog a, s.logDevice (.read a)) := by simp [State.load8, h]

theorem State.load8_none {a : Word} (h : s.kindAt a = .none) : s.load8 a = .error (.unmapped a) := by simp [State.load8, h]

theorem State.store8_ram {a : Word} (h : s.kindAt a = .ram) (v : Byte) : s.store8 a v = .ok (s.setByte a v) := by
  simp [State.store8, h]

theorem State.store8_rom {a : Word} (h : s.kindAt a = .rom) (v : Byte) : s.store8 a v = .ok s := by simp [State.store8, h]

theorem State.store8_device {a : Word} (h : s.kindAt a = .device) (v : Byte) :
    s.store8 a v = .ok (s.logDevice (.write a v)) := by simp [State.store8, h]

theorem State.store8_none {a : Word} (h : s.kindAt a = .none) (v : Byte) : s.store8 a v = .error (.unmapped a) := by
  simp [State.store8, h]

/-- A load changes at most the record of device accesses. -/
theorem State.load8_ok {a : Word} {v : Byte} {t : State} (h : s.load8 a = .ok (v, t)) : ∃ l, t = { s with devLog := l } := by
  rcases s.load8_cases a with ⟨_, e⟩ | ⟨_, e⟩ | ⟨_, e⟩ <;> rw [e] at h
  · cases h; exact ⟨s.devLog, rfl⟩
  · cases h; exact ⟨_, rfl⟩
  · cases h

theorem State.load16_ok {a v : Word} {t : State} (h : s.load16 a = .ok (v, t)) : ∃ l, t = { s with devLog := l } := by
  unfold State.load16 at h
  cases h1 : s.load8 a with
  | error e => rw [h1] at h; cases h
  | ok p =>
    obtain ⟨b, s1⟩ := p
    obtain ⟨l1, rfl⟩ := s.load8_ok h1
    rw [h1] at h
    cases h2 : State.load8 { s with devLog := l1 } (a + 1#16) with
    | error e => simp only [bind, Except.bind, h2] at h; cases h
    | ok q =>
      obtain ⟨c, s2⟩ := q
      obtain ⟨l2, rfl⟩ := State.load8_ok _ h2
      simp only [bind, Except.bind, h2] at h
      cases h
      exact ⟨l2, rfl⟩

/-- A store of a byte changes at most the record of device accesses and, where ram lies at the address, the cell there. -/
theorem State.store8_ok {a : Word} {v : Byte} {t : State} (h : s.store8 a v = .ok t) :
    ∃ l, t = { s with devLog := l } ∧ s.kindAt a ≠ .ram ∨ t = s.setByte a v ∧ s.kindAt a = .ram := by
  rcases s.store8_cases a v with ⟨k, e⟩ | ⟨k, e⟩ | ⟨k, e⟩ | ⟨_, e⟩ <;> rw [e] at h
  · cases h; exact ⟨s.devLog, .inr ⟨rfl, k⟩⟩
  · cases h; exact ⟨s.devLog, .inl ⟨rfl, by simp [k]⟩⟩
  · cases h; exact ⟨_, .inl ⟨rfl, by simp [k]⟩⟩
  · cases h

/-- A 16-bit store is the store of its two bytes, the lower address first. -/
theorem State.store16_ok {a v : Word} {t : State} (h : s.store16 a v = .ok t) :
    ∃ u, s.store8 a v.high = .ok u ∧ u.store8 (a + 1#16) v.low = .ok t := by
  unfold State.store16 at h
  cases h1 : s.store8 a v.high with
  | error e => rw [h1] at h; cases h
  | ok u => rw [h1] at h; exact ⟨u, rfl, h⟩

/-- A store instruction is the store of its byte, then the flags by policy. -/
theorem State.storeReg_ok {w : FlagWriter} {ea : Word} {v : Byte} {t : State} (h : s.storeReg w ea v = .ok t) :
    ∃ u, s.store8 ea v = .ok u ∧ t = u.putFlags w (nzW v u.flags) := by
  unfold State.storeReg at h
  cases h1 : s.store8 ea v with
  | error e => rw [h1] at h; cases h
  | ok u => rw [h1] at h; cases h; exact ⟨u, rfl, rfl⟩

/-- A store instruction of a pair is the store of its two bytes, then the flags by policy. -/
theorem State.storePair_ok {w : FlagWriter} {ea v : Word} {t : State} (h : s.storePair w ea v = .ok t) :
    ∃ u, s.store16 ea v = .ok u ∧ t = u.putFlags w (nzW v u.flags) := by
  unfold State.storePair at h
  cases h1 : s.store16 ea v with
  | error e => rw [h1] at h; cases h
  | ok u => rw [h1] at h; cases h; exact ⟨u, rfl, rfl⟩

/-- A 16-bit load of two plain cells. -/
theorem State.load16_plain {a : Word} (h : s.kindAt a = .ram ∨ s.kindAt a = .rom)
    (h' : s.kindAt (a + 1#16) = .ram ∨ s.kindAt (a + 1#16) = .rom) :
    s.load16 a = .ok (Word.ofBytes (s.byteAt a) (s.byteAt (a + 1#16)), s) := by
  simp only [State.load16, State.load8_plain s h, State.load8_plain s h', bind, Except.bind]

/-! ### The canonical form is kept by every operation on memory -/

theorem State.wf_load8 {a : Word} {v : Byte} {t : State} (h : s.load8 a = .ok (v, t)) (hs : Memory.wf s.mem = true) :
    Memory.wf t.mem = true := by
  obtain ⟨l, rfl⟩ := s.load8_ok h
  exact hs

theorem State.wf_load16 {a v : Word} {t : State} (h : s.load16 a = .ok (v, t)) (hs : Memory.wf s.mem = true) :
    Memory.wf t.mem = true := by
  obtain ⟨l, rfl⟩ := s.load16_ok h
  exact hs

theorem State.wf_store8 {a : Word} {v : Byte} {t : State} (h : s.store8 a v = .ok t) (hs : Memory.wf s.mem = true) :
    Memory.wf t.mem = true := by
  obtain ⟨l, ⟨rfl, _⟩ | ⟨rfl, _⟩⟩ := s.store8_ok h
  · exact hs
  · exact s.wf_setByte a v hs

theorem State.wf_store16 {a v : Word} {t : State} (h : s.store16 a v = .ok t) (hs : Memory.wf s.mem = true) :
    Memory.wf t.mem = true := by
  obtain ⟨u, h1, h2⟩ := s.store16_ok h
  exact u.wf_store8 h2 (s.wf_store8 h1 hs)

theorem State.wf_storeReg {w : FlagWriter} {ea : Word} {v : Byte} {t : State} (h : s.storeReg w ea v = .ok t)
    (hs : Memory.wf s.mem = true) : Memory.wf t.mem = true := by
  obtain ⟨u, h1, rfl⟩ := s.storeReg_ok h
  rw [State.putFlags_mem]
  exact s.wf_store8 h1 hs

theorem State.wf_storePair {w : FlagWriter} {ea v : Word} {t : State} (h : s.storePair w ea v = .ok t)
    (hs : Memory.wf s.mem = true) : Memory.wf t.mem = true := by
  obtain ⟨u, h1, rfl⟩ := s.storePair_ok h
  rw [State.putFlags_mem]
  exact s.wf_store16 h1 hs

theorem State.wf_resetWith (c : Config) : Memory.wf (State.resetWith c).mem = true := rfl

end Sys2Proof.Machine
end

