-- ==== Sys2Proof/Laws/PerInstr.lean ====
section
/-! SUPPORT. Per instruction: a well-formed instruction is what its head and its second halfword say, and it has a second halfword
exactly if its head is a long one. -/

namespace Sys2Proof

theorem Reg.pairName_of_even {r : Reg} (h : r.even = true) : r.pairName = r := by
  simp only [Reg.even, beq_iff_eq] at h
  apply Fin.ext
  simp only [Reg.pairName]
  omega

/-- One pair operand. -/
theorem Reg.even_one {a : Reg} (h : [a].all Reg.even = true) : a.pairName = a := by
  simp only [List.all_cons, Bool.and_eq_true] at h
  exact Reg.pairName_of_even h.1

/-- Two pair operands. -/
theorem Reg.even_two {a b : Reg} (h : [a, b].all Reg.even = true) : a.pairName = a ∧ b.pairName = b := by
  simp only [List.all_cons, Bool.and_eq_true] at h
  exact ⟨Reg.pairName_of_even h.1, Reg.pairName_of_even h.2.1⟩

/-- Three pair operands. -/
theorem Reg.even_three {a b c : Reg} (h : [a, b, c].all Reg.even = true) :
    a.pairName = a ∧ b.pairName = b ∧ c.pairName = c := by
  simp only [List.all_cons, Bool.and_eq_true] at h
  exact ⟨Reg.pairName_of_even h.1, Reg.pairName_of_even h.2.1, Reg.pairName_of_even h.2.2.1⟩

namespace Laws

/-- A well-formed instruction is read back from its head, as the decoder sees it, and its second halfword. -/
def HeadInstr.Statement (i : Instr) : Prop :=
  i.wellFormed = true → i.head.evened.instr (i.imm16.getD 0) = i ∧ i.imm16.isSome = i.head.isLong

theorem HeadInstr.addi (a : Reg) (imm : Byte) : HeadInstr.Statement (.addi a imm) :=
  fun _ => ⟨rfl, rfl⟩
theorem HeadInstr.adci (a : Reg) (imm : Byte) : HeadInstr.Statement (.adci a imm) :=
  fun _ => ⟨rfl, rfl⟩
theorem HeadInstr.addpbi (a : Reg) (imm : Byte) : HeadInstr.Statement (.addpbi a imm) :=
  fun h => ⟨congrArg (fun a' => Instr.addpbi a' imm) (Reg.even_one h), rfl⟩
theorem HeadInstr.subpbi (a : Reg) (imm : Byte) : HeadInstr.Statement (.subpbi a imm) :=
  fun h => ⟨congrArg (fun a' => Instr.subpbi a' imm) (Reg.even_one h), rfl⟩
theorem HeadInstr.cmpi (a : Reg) (imm : Byte) : HeadInstr.Statement (.cmpi a imm) :=
  fun _ => ⟨rfl, rfl⟩
theorem HeadInstr.andi (a : Reg) (imm : Byte) : HeadInstr.Statement (.andi a imm) :=
  fun _ => ⟨rfl, rfl⟩
theorem HeadInstr.orri (a : Reg) (imm : Byte) : HeadInstr.Statement (.orri a imm) :=
  fun _ => ⟨rfl, rfl⟩
theorem HeadInstr.cpyi (a : Reg) (imm : Byte) : HeadInstr.Statement (.cpyi a imm) :=
  fun _ => ⟨rfl, rfl⟩
theorem HeadInstr.add (a b : Reg) : HeadInstr.Statement (.add a b) :=
  fun _ => ⟨rfl, rfl⟩
theorem HeadInstr.adc (a b : Reg) : HeadInstr.Statement (.adc a b) :=
  fun _ => ⟨rfl, rfl⟩
theorem HeadInstr.addpb (a b : Reg) : HeadInstr.Statement (.addpb a b) :=
  fun h => ⟨congrArg (fun a' => Instr.addpb a' b) (Reg.even_one h), rfl⟩
theorem HeadInstr.addp (a b : Reg) : HeadInstr.Statement (.addp a b) :=
  fun h => ⟨congrArg₂ (fun a' b' => Instr.addp a' b') (Reg.even_two h).1 (Reg.even_two h).2, rfl⟩
theorem HeadInstr.sub (a b : Reg) : HeadInstr.Statement (.sub a b) :=
  fun _ => ⟨rfl, rfl⟩
theorem HeadInstr.sbc (a b : Reg) : HeadInstr.Statement (.sbc a b) :=
  fun _ => ⟨rfl, rfl⟩
theorem HeadInstr.subpb (a b : Reg) : HeadInstr.Statement (.subpb a b) :=
  fun h => ⟨congrArg (fun a' => Instr.subpb a' b) (Reg.even_one h), rfl⟩
theorem HeadInstr.subp (a b : Reg) : HeadInstr.Statement (.subp a b) :=
  fun h => ⟨congrArg₂ (fun a' b' => Instr.subp a' b') (Reg.even_two h).1 (Reg.even_two h).2, rfl⟩
theorem HeadInstr.cmp (a b : Reg) : HeadInstr.Statement (.cmp a b) :=
  fun _ => ⟨rfl, rfl⟩
theorem HeadInstr.cmpp (a b : Reg) : HeadInstr.Statement (.cmpp a b) :=
  fun h => ⟨congrArg₂ (fun a' b' => Instr.cmpp a' b') (Reg.even_two h).1 (Reg.even_two h).2, rfl⟩
theorem HeadInstr.umul (a b : Reg) : HeadInstr.Statement (.umul a b) :=
  fun _ => ⟨rfl, rfl⟩
theorem HeadInstr.smul (a b : Reg) : HeadInstr.Statement (.smul a b) :=
  fun _ => ⟨rfl, rfl⟩
theorem HeadInstr.and (a b : Reg) : HeadInstr.Statement (.and a b) :=
  fun _ => ⟨rfl, rfl⟩
theorem HeadInstr.orr (a b : Reg) : HeadInstr.Statement (.orr a b) :=
  fun _ => ⟨rfl, rfl⟩
theorem HeadInstr.xor (a b : Reg) : HeadInstr.Statement (.xor a b) :=
  fun _ => ⟨rfl, rfl⟩
theorem HeadInstr.andp (a b : Reg) : HeadInstr.Statement (.andp a b) :=
  fun h => ⟨congrArg₂ (fun a' b' => Instr.andp a' b') (Reg.even_two h).1 (Reg.even_two h).2, rfl⟩
theorem HeadInstr.orrp (a b : Reg) : HeadInstr.Statement (.orrp a b) :=
  fun h => ⟨congrArg₂ (fun a' b' => Instr.orrp a' b') (Reg.even_two h).1 (Reg.even_two h).2, rfl⟩
theorem HeadInstr.xorp (a b : Reg) : HeadInstr.Statement (.xorp a b) :=
  fun h => ⟨congrArg₂ (fun a' b' => Instr.xorp a' b') (Reg.even_two h).1 (Reg.even_two h).2, rfl⟩
theorem HeadInstr.inv (a : Reg) : HeadInstr.Statement (.inv a) :=
  fun _ => ⟨rfl, rfl⟩
theorem HeadInstr.invp (a : Reg) : HeadInstr.Statement (.invp a) :=
  fun h => ⟨congrArg (fun a' => Instr.invp a') (Reg.even_one h), rfl⟩
theorem HeadInstr.neg (a : Reg) : HeadInstr.Statement (.neg a) :=
  fun _ => ⟨rfl, rfl⟩
theorem HeadInstr.negp (a : Reg) : HeadInstr.Statement (.negp a) :=
  fun h => ⟨congrArg (fun a' => Instr.negp a') (Reg.even_one h), rfl⟩
theorem HeadInstr.abs (a : Reg) : HeadInstr.Statement (.abs a) :=
  fun _ => ⟨rfl, rfl⟩
theorem HeadInstr.absp (a : Reg) : HeadInstr.Statement (.absp a) :=
  fun h => ⟨congrArg (fun a' => Instr.absp a') (Reg.even_one h), rfl⟩
theorem HeadInstr.lsl (a b : Reg) : HeadInstr.Statement (.lsl a b) :=
  fun _ => ⟨rfl, rfl⟩
theorem HeadInstr.lsr (a b : Reg) : HeadInstr.Statement (.lsr a b) :=
  fun _ => ⟨rfl, rfl⟩
theorem HeadInstr.asr (a b : Reg) : HeadInstr.Statement (.asr a b) :=
  fun _ => ⟨rfl, rfl⟩
theorem HeadInstr.rol (a b : Reg) : HeadInstr.Statement (.rol a b) :=
  fun _ => ⟨rfl, rfl⟩
theorem HeadInstr.ror (a b : Reg) : HeadInstr.Statement (.ror a b) :=
  fun _ => ⟨rfl, rfl⟩
theorem HeadInstr.rolc (a : Reg) : HeadInstr.Statement (.rolc a) :=
  fun _ => ⟨rfl, rfl⟩
theorem HeadInstr.rorc (a : Reg) : HeadInstr.Statement (.rorc a) :=
  fun _ => ⟨rfl, rfl⟩
theorem HeadInstr.lslp (a b : Reg) : HeadInstr.Statement (.lslp a b) :=
  fun h => ⟨congrArg (fun a' => Instr.lslp a' b) (Reg.even_one h), rfl⟩
theorem HeadInstr.lsrp (a b : Reg) : HeadInstr.Statement (.lsrp a b) :=
  fun h => ⟨congrArg (fun a' => Instr.lsrp a' b) (Reg.even_one h), rfl⟩
theorem HeadInstr.asrp (a b : Reg) : HeadInstr.Statement (.asrp a b) :=
  fun h => ⟨congrArg (fun a' => Instr.asrp a' b) (Reg.even_one h), rfl⟩
theorem HeadInstr.rolp (a b : Reg) : HeadInstr.Statement (.rolp a b) :=
  fun h => ⟨congrArg (fun a' => Instr.rolp a' b) (Reg.even_one h), rfl⟩
theorem HeadInstr.rorp (a b : Reg) : HeadInstr.Statement (.rorp a b) :=
  fun h => ⟨congrArg (fun a' => Instr.rorp a' b) (Reg.even_one h), rfl⟩
theorem HeadInstr.rolcp (a : Reg) : HeadInstr.Statement (.rolcp a) :=
  fun h => ⟨congrArg (fun a' => Instr.rolcp a') (Reg.even_one h), rfl⟩
theorem HeadInstr.rorcp (a : Reg) : HeadInstr.Statement (.rorcp a) :=
  fun h => ⟨congrArg (fun a' => Instr.rorcp a') (Reg.even_one h), rfl⟩
theorem HeadInstr.cpy (a b : Reg) : HeadInstr.Statement (.cpy a b) :=
  fun _ => ⟨rfl, rfl⟩
theorem HeadInstr.cpyp (a b : Reg) : HeadInstr.Statement (.cpyp a b) :=
  fun h => ⟨congrArg₂ (fun a' b' => Instr.cpyp a' b') (Reg.even_two h).1 (Reg.even_two h).2, rfl⟩
theorem HeadInstr.cpyfrf (a : Reg) : HeadInstr.Statement (.cpyfrf a) :=
  fun _ => ⟨rfl, rfl⟩
theorem HeadInstr.cpytof (a : Reg) : HeadInstr.Statement (.cpytof a) :=
  fun _ => ⟨rfl, rfl⟩
theorem HeadInstr.swp (a b : Reg) : HeadInstr.Statement (.swp a b) :=
  fun h => ⟨congrArg₂ (fun a' b' => Instr.swp a' b') (Reg.even_two h).1 (Reg.even_two h).2, rfl⟩
theorem HeadInstr.call (a : Reg) : HeadInstr.Statement (.call a) :=
  fun h => ⟨congrArg (fun a' => Instr.call a') (Reg.even_one h), rfl⟩
theorem HeadInstr.ldr (a b : Reg) : HeadInstr.Statement (.ldr a b) :=
  fun h => ⟨congrArg (fun b' => Instr.ldr a b') (Reg.even_one h), rfl⟩
theorem HeadInstr.str (a b : Reg) : HeadInstr.Statement (.str a b) :=
  fun h => ⟨congrArg (fun b' => Instr.str a b') (Reg.even_one h), rfl⟩
theorem HeadInstr.ldrab (a b : Reg) : HeadInstr.Statement (.ldrab a b) :=
  fun h => ⟨congrArg (fun b' => Instr.ldrab a b') (Reg.even_one h), rfl⟩
theorem HeadInstr.strab (a b : Reg) : HeadInstr.Statement (.strab a b) :=
  fun h => ⟨congrArg (fun b' => Instr.strab a b') (Reg.even_one h), rfl⟩
theorem HeadInstr.ldrsa (a b : Reg) : HeadInstr.Statement (.ldrsa a b) :=
  fun h => ⟨congrArg (fun b' => Instr.ldrsa a b') (Reg.even_one h), rfl⟩
theorem HeadInstr.strsa (a b : Reg) : HeadInstr.Statement (.strsa a b) :=
  fun h => ⟨congrArg (fun b' => Instr.strsa a b') (Reg.even_one h), rfl⟩
theorem HeadInstr.ldfab (b : Reg) : HeadInstr.Statement (.ldfab b) :=
  fun h => ⟨congrArg (fun b' => Instr.ldfab b') (Reg.even_one h), rfl⟩
theorem HeadInstr.stfsa (b : Reg) : HeadInstr.Statement (.stfsa b) :=
  fun h => ⟨congrArg (fun b' => Instr.stfsa b') (Reg.even_one h), rfl⟩
theorem HeadInstr.ldp (a b : Reg) : HeadInstr.Statement (.ldp a b) :=
  fun h => ⟨congrArg₂ (fun a' b' => Instr.ldp a' b') (Reg.even_two h).1 (Reg.even_two h).2, rfl⟩
theorem HeadInstr.stp (a b : Reg) : HeadInstr.Statement (.stp a b) :=
  fun h => ⟨congrArg₂ (fun a' b' => Instr.stp a' b') (Reg.even_two h).1 (Reg.even_two h).2, rfl⟩
theorem HeadInstr.ldpab (a b : Reg) : HeadInstr.Statement (.ldpab a b) :=
  fun h => ⟨congrArg₂ (fun a' b' => Instr.ldpab a' b') (Reg.even_two h).1 (Reg.even_two h).2, rfl⟩
theorem HeadInstr.stpab (a b : Reg) : HeadInstr.Statement (.stpab a b) :=
  fun h => ⟨congrArg₂ (fun a' b' => Instr.stpab a' b') (Reg.even_two h).1 (Reg.even_two h).2, rfl⟩
theorem HeadInstr.ldpsa (a b : Reg) : HeadInstr.Statement (.ldpsa a b) :=
  fun h => ⟨congrArg₂ (fun a' b' => Instr.ldpsa a' b') (Reg.even_two h).1 (Reg.even_two h).2, rfl⟩
theorem HeadInstr.stpsa (a b : Reg) : HeadInstr.Statement (.stpsa a b) :=
  fun h => ⟨congrArg₂ (fun a' b' => Instr.stpsa a' b') (Reg.even_two h).1 (Reg.even_two h).2, rfl⟩
theorem HeadInstr.eni : HeadInstr.Statement .eni :=
  fun _ => ⟨rfl, rfl⟩
theorem HeadInstr.dii : HeadInstr.Statement .dii :=
  fun _ => ⟨rfl, rfl⟩
theorem HeadInstr.reti : HeadInstr.Statement .reti :=
  fun _ => ⟨rfl, rfl⟩
theorem HeadInstr.swpira (a : Reg) : HeadInstr.Statement (.swpira a) :=
  fun h => ⟨congrArg (fun a' => Instr.swpira a') (Reg.even_one h), rfl⟩
theorem HeadInstr.cpypira (a : Reg) : HeadInstr.Statement (.cpypira a) :=
  fun h => ⟨congrArg (fun a' => Instr.cpypira a') (Reg.even_one h), rfl⟩
theorem HeadInstr.ldrx (a b c : Reg) : HeadInstr.Statement (.ldrx a b c) :=
  fun h => ⟨congrArg₂ (fun b' c' => Instr.ldrx a b' c') (Reg.even_two h).1 (Reg.even_two h).2, rfl⟩
theorem HeadInstr.strx (a b c : Reg) : HeadInstr.Statement (.strx a b c) :=
  fun h => ⟨congrArg₂ (fun b' c' => Instr.strx a b' c') (Reg.even_two h).1 (Reg.even_two h).2, rfl⟩
theorem HeadInstr.ldpx (a b c : Reg) : HeadInstr.Statement (.ldpx a b c) :=
  fun h => ⟨congr (congrArg₂ Instr.ldpx (Reg.even_three h).1 (Reg.even_three h).2.1) (Reg.even_three h).2.2, rfl⟩
theorem HeadInstr.stpx (a b c : Reg) : HeadInstr.Statement (.stpx a b c) :=
  fun h => ⟨congr (congrArg₂ Instr.stpx (Reg.even_three h).1 (Reg.even_three h).2.1) (Reg.even_three h).2.2, rfl⟩
theorem HeadInstr.bra (imm : Byte) : HeadInstr.Statement (.bra imm) :=
  fun _ => ⟨rfl, rfl⟩
theorem HeadInstr.bnv (imm : Byte) : HeadInstr.Statement (.bnv imm) :=
  fun _ => ⟨rfl, rfl⟩
theorem HeadInstr.bne (imm : Byte) : HeadInstr.Statement (.bne imm) :=
  fun _ => ⟨rfl, rfl⟩
theorem HeadInstr.beq (imm : Byte) : HeadInstr.Statement (.beq imm) :=
  fun _ => ⟨rfl, rfl⟩
theorem HeadInstr.bcc (imm : Byte) : HeadInstr.Statement (.bcc imm) :=
  fun _ => ⟨rfl, rfl⟩
theorem HeadInstr.bcs (imm : Byte) : HeadInstr.Statement (.bcs imm) :=
  fun _ => ⟨rfl, rfl⟩
theorem HeadInstr.bls (imm : Byte) : HeadInstr.Statement (.bls imm) :=
  fun _ => ⟨rfl, rfl⟩
theorem HeadInstr.bhi (imm : Byte) : HeadInstr.Statement (.bhi imm) :=
  fun _ => ⟨rfl, rfl⟩
theorem HeadInstr.bvc (imm : Byte) : HeadInstr.Statement (.bvc imm) :=
  fun _ => ⟨rfl, rfl⟩
theorem HeadInstr.bvs (imm : Byte) : HeadInstr.Statement (.bvs imm) :=
  fun _ => ⟨rfl, rfl⟩
theorem HeadInstr.bpl (imm : Byte) : HeadInstr.Statement (.bpl imm) :=
  fun _ => ⟨rfl, rfl⟩
theorem HeadInstr.bmi (imm : Byte) : HeadInstr.Statement (.bmi imm) :=
  fun _ => ⟨rfl, rfl⟩
theorem HeadInstr.cpypi (a : Reg) (imm : Word) : HeadInstr.Statement (.cpypi a imm) :=
  fun h => ⟨congrArg (fun a' => Instr.cpypi a' imm) (Reg.even_one h), rfl⟩
theorem HeadInstr.calli (imm : Word) : HeadInstr.Statement (.calli imm) :=
  fun _ => ⟨rfl, rfl⟩
theorem HeadInstr.ldrxi (a b : Reg) (imm : Word) : HeadInstr.Statement (.ldrxi a b imm) :=
  fun h => ⟨congrArg (fun b' => Instr.ldrxi a b' imm) (Reg.even_one h), rfl⟩
theorem HeadInstr.strxi (a b : Reg) (imm : Word) : HeadInstr.Statement (.strxi a b imm) :=
  fun h => ⟨congrArg (fun b' => Instr.strxi a b' imm) (Reg.even_one h), rfl⟩
theorem HeadInstr.ldpxi (a b : Reg) (imm : Word) : HeadInstr.Statement (.ldpxi a b imm) :=
  fun h => ⟨congrArg₂ (fun a' b' => Instr.ldpxi a' b' imm) (Reg.even_two h).1 (Reg.even_two h).2, rfl⟩
theorem HeadInstr.stpxi (a b : Reg) (imm : Word) : HeadInstr.Statement (.stpxi a b imm) :=
  fun h => ⟨congrArg₂ (fun a' b' => Instr.stpxi a' b' imm) (Reg.even_two h).1 (Reg.even_two h).2, rfl⟩
theorem HeadInstr.lslpi (a : Reg) (imm : BitVec 4) : HeadInstr.Statement (.lslpi a imm) :=
  fun h => ⟨congrArg (fun a' => Instr.lslpi a' imm) (Reg.even_one h), rfl⟩
theorem HeadInstr.lsrpi (a : Reg) (imm : BitVec 4) : HeadInstr.Statement (.lsrpi a imm) :=
  fun h => ⟨congrArg (fun a' => Instr.lsrpi a' imm) (Reg.even_one h), rfl⟩
theorem HeadInstr.asrpi (a : Reg) (imm : BitVec 4) : HeadInstr.Statement (.asrpi a imm) :=
  fun h => ⟨congrArg (fun a' => Instr.asrpi a' imm) (Reg.even_one h), rfl⟩
theorem HeadInstr.rolpi (a : Reg) (imm : BitVec 4) : HeadInstr.Statement (.rolpi a imm) :=
  fun h => ⟨congrArg (fun a' => Instr.rolpi a' imm) (Reg.even_one h), rfl⟩
theorem HeadInstr.rorpi (a : Reg) (imm : BitVec 4) : HeadInstr.Statement (.rorpi a imm) :=
  fun h => ⟨congrArg (fun a' => Instr.rorpi a' imm) (Reg.even_one h), rfl⟩

end Laws

end Sys2Proof
end

