-- ==== Sys2Proof/Laws/Step.lean ====
section
/-! SUPPORT. The operations of the step: how an access ends an instruction, a branch, the fetch, an interrupt entry and the return
from one. -/

namespace Sys2Proof.Machine

variable (s : State)

/-! ### How an instruction that accesses memory ends -/

theorem finish_eq_next {r : Except Refusal State} {t : State} : finish r = .next t ↔ r = .ok t := by
  cases r <;> simp [finish]

theorem finish_eq_refused {r : Except Refusal State} {e : Refusal} : finish r = .refused e ↔ r = .error e := by
  cases r <;> simp [finish]

/-! ### A branch -/

/-- Everything a branch can do: its target where the condition holds, else the pc as it is; then the flags by policy. -/
theorem State.branch_cases (op : Op4) (cond : Bool) (imm : Byte) :
    (cond = true ∧ s.branch op cond imm = (s.setPc (s.pc + s.cfg.branchScale * sext16 imm)).settleFlags (.g4 op)) ∨
    (cond = false ∧ s.branch op cond imm = s.settleFlags (.g4 op)) := by
  cases cond <;> simp [State.branch]

/-! ### The fetch -/

/-- The length of an instruction is that of its head. -/
theorem Head.length_instr (h : Head) (imm : Word) : (h.instr imm).length = h.length := by
  cases h with
  | g1 op a i => cases op <;> rfl
  | g2 op a b => cases op <;> rfl
  | g3 op a b c => cases op <;> rfl
  | g4 op i => cases op <;> rfl
  | g5 op a b => cases op <;> rfl
  | g6 op a i => cases op <;> rfl

/-- Everything a fetch that succeeds can do: the pc is advanced past the instruction, and the record of device accesses may have grown. -/
theorem State.fetch_ok {i : Instr} {t : State} (h : s.fetch = .ok (i, t)) :
    ∃ l, t = { s with devLog := l }.setPc (s.pc + BitVec.ofNat 16 i.length) := by
  unfold State.fetch at h
  cases h1 : s.load16 s.pc with
  | error e => simp only [h1, bind, Except.bind] at h; cases h
  | ok p =>
    obtain ⟨w, u⟩ := p
    obtain ⟨l, rfl⟩ := s.load16_ok h1
    simp only [h1, bind, Except.bind] at h
    split at h
    · cases h
    · rename_i hd _
      split at h
      · rename_i hl
        cases h2 : State.load16 { s with devLog := l } (s.pc + 2#16) with
        | error e => simp only [h2] at h; cases h
        | ok q =>
          obtain ⟨imm, u⟩ := q
          obtain ⟨l', rfl⟩ := State.load16_ok _ h2
          simp only [h2] at h
          cases h
          exact ⟨l', by rw [Head.length_instr, Head.length, if_pos hl]⟩
      · rename_i hl
        cases h
        exact ⟨l, by rw [Head.length_instr, Head.length, if_neg hl]⟩

/-! ### Interrupt entry and return -/

@[simp] theorem State.takeInterrupt_pc : s.takeInterrupt.pc = s.cfg.intVector := by simp [State.takeInterrupt]
@[simp] theorem State.returnFromInterrupt_pc : s.returnFromInterrupt.pc = s.ira := by simp [State.returnFromInterrupt]; exact State.pc_setPc s s.ira

end Sys2Proof.Machine
end

