-- ==== Sys2Proof/Tests/Slice0.lean ====
section
/-! SUPPORT. Tests of the slice: ill-formed terms, words written out from the spec's encodings, one step of each instruction with the
values of spec/95_test_vectors.md, and for each statement that has hypotheses a state and operands that meet them. -/

namespace Sys2Proof.Tests

open Sys2Proof.Machine

/-! ### Helpers -/

/-- Each word of the table reads as its instruction. -/
def readAs (nbits : Nat) (table : List (Nat × Instr)) : Bool := table.all fun p => decodeTableWord nbits p.1 == some p.2

/-- The reset state with instruction words at 0x0100, where its pc is, and registers, flags and memory as listed. -/
def start (words : List Word) (regs : List (Reg × Byte)) (f : Flags) (mem : List (Word × Byte)) : State :=
  let s := State.reset.placeBytes 0x0100 (words.flatMap fun w => [w.high, w.low])
  mem.foldl (fun s p => s.setByte p.1 p.2) (regs.foldl (fun s p => s.setReg p.1 p.2) (s.setFlags f))

/-- The machine goes on, to a state with the property. -/
def ends (o : Out) (P : State → Bool) : Bool :=
  match o with
  | .next t => P t
  | .fault _ => false
  | .refused _ => false

/-- The machine is refused for this reason. -/
def stops (o : Out) (r : Refusal) : Bool :=
  match o with
  | .next _ => false
  | .fault _ => false
  | .refused r' => r' == r

/-- N, V, Z, C. -/
def nvzc (n v z c : Nat) : Flags := ⟨n == 1, v == 1, z == 1, c == 1⟩

/-- No flag set. -/
def clear : Flags := nvzc 0 0 0 0

/-- The state with another memory map. -/
def withMap (s : State) (regions : List Region) (elsewhere : MemKind) : State :=
  { s with cfg := { s.cfg with memMap := ⟨regions, elsewhere⟩ } }

/-- The state with another FLAG_POLICY. -/
def withPolicy (s : State) (lines : List FlagLine) : State := { s with cfg := { s.cfg with flagPolicy := ⟨lines⟩ } }

/-! ### Well-formedness: a pair operand named by an odd register is refused, an 8-bit register may be odd -/

theorem test_odd_pair_destination_refused : (Instr.addpbi 3 0).wellFormed = false := by decide
theorem test_odd_first_pair_refused : (Instr.addp 3 4).wellFormed = false := by decide
theorem test_odd_second_pair_refused : (Instr.addp 2 5).wellFormed = false := by decide
theorem test_odd_pointer_refused : (Instr.ldr 1 5).wellFormed = false := by decide
theorem test_odd_index_refused : (Instr.ldrx 1 4 7).wellFormed = false := by decide
theorem test_odd_link_source_refused : (Instr.call 13).wellFormed = false := by decide
theorem test_odd_shifted_pair_refused : (Instr.rorpi 9 4).wellFormed = false := by decide
theorem test_odd_byte_register_accepted : (Instr.ldrx 15 4 6).wellFormed = true := by decide
theorem test_odd_product_register_accepted : (Instr.umul 3 5).wellFormed = true := by decide

/-! ### Decoding: for every constructor a word written out, field by field, from its row of 30_encoding.md R63 to R75. A 4-bit pair field
is written odd in most of them, an ignored field not zero. -/

/-- Group 1. -/
theorem test_decode_group1 : readAs 16
   [(0b0_000_0101_10011100, .addi 5 0x9c),
    (0b0_001_1011_00110111, .adci 11 0x37),
    (0b0_010_0110_11100001, .addpbi 6 0xe1),
    (0b0_011_1111_10011100, .subpbi 14 0x9c),
    (0b0_100_0011_00110111, .cmpi 3 0x37),
    (0b0_101_0101_11100001, .andi 5 0xe1),
    (0b0_110_1011_10011100, .orri 11 0x9c),
    (0b0_111_0110_00110111, .cpyi 6 0x37)] = true := by decide

/-- Group 2, from add to andp. -/
theorem test_decode_group2_from_add : readAs 16
   [(0b10_000000_1111_0100, .add 15 4),
    (0b10_000001_0011_1110, .adc 3 14),
    (0b10_000010_0101_1101, .addpb 4 13),
    (0b10_000011_1011_0011, .addp 10 2),
    (0b10_000100_0110_1001, .sub 6 9),
    (0b10_000101_1111_0100, .sbc 15 4),
    (0b10_000110_0011_1110, .subpb 2 14),
    (0b10_000111_0101_1101, .subp 4 12),
    (0b10_001000_1011_0011, .cmp 11 3),
    (0b10_001001_0110_1001, .cmpp 6 8),
    (0b10_001010_1111_0100, .umul 15 4),
    (0b10_001011_0011_1110, .smul 3 14),
    (0b10_001100_0101_1101, .and 5 13),
    (0b10_001101_1011_0011, .orr 11 3),
    (0b10_001110_0110_1001, .xor 6 9),
    (0b10_001111_1111_0100, .andp 14 4)] = true := by decide

/-- Group 2, from orrp to lslp. -/
theorem test_decode_group2_from_orrp : readAs 16
   [(0b10_010000_0011_1110, .orrp 2 14),
    (0b10_010001_0101_1101, .xorp 4 12),
    (0b10_010010_1011_0011, .inv 11),
    (0b10_010011_0110_1001, .invp 6),
    (0b10_010100_1111_0100, .neg 15),
    (0b10_010101_0011_1110, .negp 2),
    (0b10_010110_0101_1101, .abs 5),
    (0b10_010111_1011_0011, .absp 10),
    (0b10_011000_0110_1001, .lsl 6 9),
    (0b10_011001_1111_0100, .lsr 15 4),
    (0b10_011010_0011_1110, .asr 3 14),
    (0b10_011011_0101_1101, .rol 5 13),
    (0b10_011100_1011_0011, .ror 11 3),
    (0b10_011101_0110_1001, .rolc 6),
    (0b10_011110_1111_0100, .rorc 15),
    (0b10_011111_0011_1110, .lslp 2 14)] = true := by decide

/-- Group 2, from lsrp to strab. -/
theorem test_decode_group2_from_lsrp : readAs 16
   [(0b10_100000_0101_1101, .lsrp 4 13),
    (0b10_100001_1011_0011, .asrp 10 3),
    (0b10_100010_0110_1001, .rolp 6 9),
    (0b10_100011_1111_0100, .rorp 14 4),
    (0b10_100100_0011_1110, .rolcp 2),
    (0b10_100101_0101_1101, .rorcp 4),
    (0b10_100110_1011_0011, .cpy 11 3),
    (0b10_100111_0110_1001, .cpyp 6 8),
    (0b10_101000_1111_0100, .cpyfrf 15),
    (0b10_101001_0011_1110, .cpytof 3),
    (0b10_101010_0101_1101, .swp 4 12),
    (0b10_101011_1011_0011, .call 10),
    (0b10_101100_0110_1001, .ldr 6 8),
    (0b10_101101_1111_0100, .str 15 4),
    (0b10_101110_0011_1110, .ldrab 3 14),
    (0b10_101111_0101_1101, .strab 5 12)] = true := by decide

/-- Group 2, from ldrsa to cpypira. -/
theorem test_decode_group2_from_ldrsa : readAs 16
   [(0b10_110000_1011_0011, .ldrsa 11 2),
    (0b10_110001_0110_1001, .strsa 6 8),
    (0b10_110010_1111_0100, .ldfab 4),
    (0b10_110011_0011_1110, .stfsa 14),
    (0b10_110100_0101_1101, .ldp 4 12),
    (0b10_110101_1011_0011, .stp 10 2),
    (0b10_110110_0110_1001, .ldpab 6 8),
    (0b10_110111_1111_0100, .stpab 14 4),
    (0b10_111000_0011_1110, .ldpsa 2 14),
    (0b10_111001_0101_1101, .stpsa 4 12),
    (0b10_111010_1011_0011, .eni),
    (0b10_111011_0110_1001, .dii),
    (0b10_111100_1111_0100, .reti),
    (0b10_111101_0011_1110, .swpira 2),
    (0b10_111110_0101_1101, .cpypira 4)] = true := by decide

/-- Group 3. -/
theorem test_decode_group3 : readAs 16
   [(0b1100_00_1011_011_101, .ldrx 11 6 10),
    (0b1100_01_0110_001_101, .strx 6 2 10),
    (0b1100_10_1111_100_101, .ldpx 14 8 10),
    (0b1100_11_0011_110_101, .stpx 2 12 10)] = true := by decide

/-- Group 4. -/
theorem test_decode_group4 : readAs 16
   [(0b1101_0000_10011100, .bra 0x9c),
    (0b1101_0001_00110111, .bnv 0x37),
    (0b1101_0010_11100001, .bne 0xe1),
    (0b1101_0011_10011100, .beq 0x9c),
    (0b1101_0100_00110111, .bcc 0x37),
    (0b1101_0101_11100001, .bcs 0xe1),
    (0b1101_0110_10011100, .bls 0x9c),
    (0b1101_0111_00110111, .bhi 0x37),
    (0b1101_1000_11100001, .bvc 0xe1),
    (0b1101_1001_10011100, .bvs 0x9c),
    (0b1101_1010_00110111, .bpl 0x37),
    (0b1101_1011_11100001, .bmi 0xe1)] = true := by decide

/-- Group 5. -/
theorem test_decode_group5 : readAs 32
   [(0b111000_000_0110_001 + 0xA5C3 * 2 ^ 16, .cpypi 6 0xA5C3),
    (0b111000_001_1111_100 + 0xA5C3 * 2 ^ 16, .calli 0xA5C3),
    (0b111000_010_0011_110 + 0xA5C3 * 2 ^ 16, .ldrxi 3 12 0xA5C3),
    (0b111000_011_0101_101 + 0xA5C3 * 2 ^ 16, .strxi 5 10 0xA5C3),
    (0b111000_100_1011_011 + 0xA5C3 * 2 ^ 16, .ldpxi 10 6 0xA5C3),
    (0b111000_101_0110_001 + 0xA5C3 * 2 ^ 16, .stpxi 6 2 0xA5C3)] = true := by decide

/-- Group 6. -/
theorem test_decode_group6 : readAs 16
   [(0b111001_000_111_1001, .lslpi 14 9),
    (0b111001_001_011_1001, .lsrpi 6 9),
    (0b111001_010_101_1001, .asrpi 10 9),
    (0b111001_011_011_1001, .rolpi 6 9),
    (0b111001_100_110_1001, .rorpi 12 9)] = true := by decide

/-- The first and the last word of every range of R76. -/
theorem test_unallocated_words :
    [0xBF00, 0xBFFF, 0xDC00, 0xDFFF, 0xE300, 0xE3FF, 0xE680, 0xE7FF, 0xE800, 0xFFFF].all (fun w => decodeTableWord 16 w == none) = true := by
  decide

/-- The words just outside those ranges. -/
theorem test_allocated_neighbours :
    [0xBEFF, 0xC000, 0xDBFF, 0xE000, 0xE2FF, 0xE400, 0xE67F].all (fun w => (decodeTableWord 16 w).isSome) = true := by decide

/-- `ldrxi r0, r2p, 0x0010` in memory order, written by the encoder (R61, R75). -/
theorem test_encode_long : encode OpcodeMap.listOrder (.ldrxi 0 2 0x0010) = [0xE1, 0x01, 0x00, 0x10] := by decide

/-- `stpsa r12p, sp` (R73). -/
theorem test_encode_short : encode OpcodeMap.listOrder (.stpsa 12 10) = [0xB9, 0xCA] := by decide

/-! ### One step of each instruction: the values of spec/95_test_vectors.md, Part 2 -/

/-- addi r1, 0x80 (subi r1, 0x80), R108. -/
theorem test_addi :
    ends (step (start [0x0180] [(1, 0x80)] clear []))
      (fun t => t.reg 1 == 0x00 && t.flags == nvzc 0 1 1 1 && t.pc == 0x0102) = true := by decide
/-- adci r2, 0x10, R101. -/
theorem test_adci :
    ends (step (start [0x1210] [(2, 0xEF)] (nvzc 0 0 0 1) []))
      (fun t => t.reg 2 == 0x00 && t.flags == nvzc 0 0 1 1 && t.pc == 0x0102) = true := by decide
/-- addpbi r2p, 1 (a = 3), R102. -/
theorem test_addpbi :
    ends (step (start [0x2301] [(2, 0xFF), (3, 0xFF)] clear []))
      (fun t => t.pair 2 == 0x0000 && t.flags == nvzc 0 0 1 1 && t.pc == 0x0102) = true := by decide
/-- subpbi r2p, 1, R103. -/
theorem test_subpbi :
    ends (step (start [0x3201] [(2, 0x01), (3, 0x00)] clear []))
      (fun t => t.pair 2 == 0x00FF && t.flags == nvzc 0 0 0 1 && t.pc == 0x0102) = true := by decide
/-- cmpi r4, 0x10, R104. -/
theorem test_cmpi :
    ends (step (start [0x4410] [(4, 0x10)] clear []))
      (fun t => t.reg 4 == 0x10 && t.flags == nvzc 0 0 1 1 && t.pc == 0x0102) = true := by decide
/-- andi r5, 0x0F, R105. -/
theorem test_andi :
    ends (step (start [0x550F] [(5, 0xF0)] (nvzc 0 1 0 1) []))
      (fun t => t.reg 5 == 0x00 && t.flags == nvzc 0 1 1 1 && t.pc == 0x0102) = true := by decide
/-- orri r5, 0x80, R106. -/
theorem test_orri :
    ends (step (start [0x6580] [(5, 0x01)] clear []))
      (fun t => t.reg 5 == 0x81 && t.flags == nvzc 1 0 0 0 && t.pc == 0x0102) = true := by decide
/-- cpyi r6, 0xAB, R107. -/
theorem test_cpyi :
    ends (step (start [0x76AB] [(6, 0x00)] (nvzc 0 1 1 0) []))
      (fun t => t.reg 6 == 0xAB && t.flags == nvzc 0 1 1 0 && t.pc == 0x0102) = true := by decide
/-- add r0, r1, R120. -/
theorem test_add :
    ends (step (start [0x8001] [(0, 0x80), (1, 0x80)] clear []))
      (fun t => t.reg 0 == 0x00 && t.flags == nvzc 0 1 1 1 && t.pc == 0x0102) = true := by decide
/-- adc r0, r1, R121. -/
theorem test_adc :
    ends (step (start [0x8101] [(0, 0x7F), (1, 0x00)] (nvzc 0 0 0 1) []))
      (fun t => t.reg 0 == 0x80 && t.flags == nvzc 1 1 0 0 && t.pc == 0x0102) = true := by decide
/-- addpb r2p, r5, R122. -/
theorem test_addpb :
    ends (step (start [0x8225] [(2, 0x00), (3, 0xFF), (5, 0xFF)] clear []))
      (fun t => t.pair 2 == 0x01FE && t.flags == nvzc 0 0 0 0 && t.pc == 0x0102) = true := by decide
/-- addp r2p, r4p, R123. -/
theorem test_addp :
    ends (step (start [0x8324] [(2, 0x80), (3, 0x00), (4, 0x80), (5, 0x00)] clear []))
      (fun t => t.pair 2 == 0x0000 && t.flags == nvzc 0 1 1 1 && t.pc == 0x0102) = true := by decide
/-- sub r0, r1, R124. -/
theorem test_sub :
    ends (step (start [0x8401] [(0, 0x05), (1, 0x05)] clear []))
      (fun t => t.reg 0 == 0x00 && t.flags == nvzc 0 0 1 1 && t.pc == 0x0102) = true := by decide
/-- sbc r0, r1, R125. -/
theorem test_sbc :
    ends (step (start [0x8501] [(0, 0x05), (1, 0x05)] clear []))
      (fun t => t.reg 0 == 0xFF && t.flags == nvzc 1 0 0 0 && t.pc == 0x0102) = true := by decide
/-- subpb r2p, r5, R126. -/
theorem test_subpb :
    ends (step (start [0x8625] [(2, 0x01), (3, 0x00), (5, 0x01)] clear []))
      (fun t => t.pair 2 == 0x00FF && t.flags == nvzc 0 0 0 1 && t.pc == 0x0102) = true := by decide
/-- subp r2p, r4p, R127. -/
theorem test_subp :
    ends (step (start [0x8724] [(2, 0x80), (3, 0x00), (4, 0x00), (5, 0x01)] clear []))
      (fun t => t.pair 2 == 0x7FFF && t.flags == nvzc 0 1 0 1 && t.pc == 0x0102) = true := by decide
/-- cmp r0, r1, R128. -/
theorem test_cmp :
    ends (step (start [0x8801] [(0, 0x7F), (1, 0xFF)] clear []))
      (fun t => t.reg 0 == 0x7F && t.flags == nvzc 1 1 0 0 && t.pc == 0x0102) = true := by decide
/-- cmpp r0p, r2p, R129. -/
theorem test_cmpp :
    ends (step (start [0x8902] [(0, 0x12), (1, 0x34), (2, 0x12), (3, 0x34)] clear []))
      (fun t => t.pair 0 == 0x1234 && t.flags == nvzc 0 0 1 1 && t.pc == 0x0102) = true := by decide
/-- umul r0p, r2, R130. -/
theorem test_umul :
    ends (step (start [0x8A02] [(0, 0xFF), (2, 0xFF)] clear []))
      (fun t => t.pair 0 == 0xFE01 && t.flags == nvzc 1 0 0 0 && t.pc == 0x0102) = true := by decide
/-- smul r0p, r2, R131. -/
theorem test_smul :
    ends (step (start [0x8B02] [(0, 0x80), (2, 0x7F)] clear []))
      (fun t => t.pair 0 == 0xC080 && t.flags == nvzc 1 0 0 0 && t.pc == 0x0102) = true := by decide
/-- and r0, r1, R132. -/
theorem test_and :
    ends (step (start [0x8C01] [(0, 0xF0), (1, 0x0F)] clear []))
      (fun t => t.reg 0 == 0x00 && t.flags == nvzc 0 0 1 0 && t.pc == 0x0102) = true := by decide
/-- orr r0, r1, R133. -/
theorem test_orr :
    ends (step (start [0x8D01] [(0, 0x80), (1, 0x01)] clear []))
      (fun t => t.reg 0 == 0x81 && t.flags == nvzc 1 0 0 0 && t.pc == 0x0102) = true := by decide
/-- xor r0, r1, R134. -/
theorem test_xor :
    ends (step (start [0x8E01] [(0, 0xFF), (1, 0x0F)] clear []))
      (fun t => t.reg 0 == 0xF0 && t.flags == nvzc 1 0 0 0 && t.pc == 0x0102) = true := by decide
/-- andp r0p, r2p, R135. -/
theorem test_andp :
    ends (step (start [0x8F02] [(0, 0xFF), (1, 0x00), (2, 0x0F), (3, 0xF0)] clear []))
      (fun t => t.pair 0 == 0x0F00 && t.flags == nvzc 0 0 0 0 && t.pc == 0x0102) = true := by decide
/-- orrp r0p, r2p, R136. -/
theorem test_orrp :
    ends (step (start [0x9002] [(0, 0x80), (1, 0x00), (2, 0x00), (3, 0x01)] clear []))
      (fun t => t.pair 0 == 0x8001 && t.flags == nvzc 1 0 0 0 && t.pc == 0x0102) = true := by decide
/-- xorp r0p, r2p, R137. -/
theorem test_xorp :
    ends (step (start [0x9102] [(0, 0x12), (1, 0x34), (2, 0x12), (3, 0x34)] clear []))
      (fun t => t.pair 0 == 0x0000 && t.flags == nvzc 0 0 1 0 && t.pc == 0x0102) = true := by decide
/-- inv r0 (b = 15), R138. -/
theorem test_inv :
    ends (step (start [0x920F] [(0, 0x00)] clear []))
      (fun t => t.reg 0 == 0xFF && t.flags == nvzc 1 0 0 0 && t.pc == 0x0102) = true := by decide
/-- invp r0p, R139. -/
theorem test_invp :
    ends (step (start [0x9300] [(0, 0x00), (1, 0xFF)] clear []))
      (fun t => t.pair 0 == 0xFF00 && t.flags == nvzc 1 0 0 0 && t.pc == 0x0102) = true := by decide
/-- neg r0, R140. -/
theorem test_neg :
    ends (step (start [0x9400] [(0, 0x01)] clear []))
      (fun t => t.reg 0 == 0xFF && t.flags == nvzc 1 0 0 0 && t.pc == 0x0102) = true := by decide
/-- negp r0p, R141. -/
theorem test_negp :
    ends (step (start [0x9500] [(0, 0x00), (1, 0x01)] clear []))
      (fun t => t.pair 0 == 0xFFFF && t.flags == nvzc 1 0 0 0 && t.pc == 0x0102) = true := by decide
/-- abs r0, R142. -/
theorem test_abs :
    ends (step (start [0x9600] [(0, 0xFB)] clear []))
      (fun t => t.reg 0 == 0x05 && t.flags == nvzc 0 0 0 0 && t.pc == 0x0102) = true := by decide
/-- absp r0p, R143. -/
theorem test_absp :
    ends (step (start [0x9700] [(0, 0xFF), (1, 0xFE)] clear []))
      (fun t => t.pair 0 == 0x0002 && t.flags == nvzc 0 0 0 0 && t.pc == 0x0102) = true := by decide
/-- lsl r0, r1, R150. -/
theorem test_lsl :
    ends (step (start [0x9801] [(0, 0x81), (1, 0x07)] clear []))
      (fun t => t.reg 0 == 0x80 && t.flags == nvzc 1 0 0 0 && t.pc == 0x0102) = true := by decide
/-- lsr r0, r1, R151. -/
theorem test_lsr :
    ends (step (start [0x9901] [(0, 0x81), (1, 0x08)] clear []))
      (fun t => t.reg 0 == 0x00 && t.flags == nvzc 0 0 1 0 && t.pc == 0x0102) = true := by decide
/-- asr r0, r1, R152. -/
theorem test_asr :
    ends (step (start [0x9A01] [(0, 0x81), (1, 0x01)] clear []))
      (fun t => t.reg 0 == 0xC0 && t.flags == nvzc 1 0 0 0 && t.pc == 0x0102) = true := by decide
/-- rol r0, r1, R153. -/
theorem test_rol :
    ends (step (start [0x9B01] [(0, 0x81), (1, 0xFF)] clear []))
      (fun t => t.reg 0 == 0xC0 && t.flags == nvzc 1 0 0 0 && t.pc == 0x0102) = true := by decide
/-- ror r0, r1, R154. -/
theorem test_ror :
    ends (step (start [0x9C01] [(0, 0x81), (1, 0x01)] clear []))
      (fun t => t.reg 0 == 0xC0 && t.flags == nvzc 1 0 0 0 && t.pc == 0x0102) = true := by decide
/-- rolc r0, R155. -/
theorem test_rolc :
    ends (step (start [0x9D00] [(0, 0x80)] clear []))
      (fun t => t.reg 0 == 0x00 && t.flags == nvzc 0 0 1 1 && t.pc == 0x0102) = true := by decide
/-- rorc r0, R156. -/
theorem test_rorc :
    ends (step (start [0x9E00] [(0, 0x01)] clear []))
      (fun t => t.reg 0 == 0x00 && t.flags == nvzc 0 0 1 1 && t.pc == 0x0102) = true := by decide
/-- lslp r0p, r2, R157. -/
theorem test_lslp :
    ends (step (start [0x9F02] [(0, 0x80), (1, 0x01), (2, 0x10)] clear []))
      (fun t => t.pair 0 == 0x0000 && t.flags == nvzc 0 0 1 0 && t.pc == 0x0102) = true := by decide
/-- lsrp r0p, r2, R158. -/
theorem test_lsrp :
    ends (step (start [0xA002] [(0, 0x80), (1, 0x01), (2, 0x10)] clear []))
      (fun t => t.pair 0 == 0x0000 && t.flags == nvzc 0 0 1 0 && t.pc == 0x0102) = true := by decide
/-- asrp r0p, r2, R159. -/
theorem test_asrp :
    ends (step (start [0xA102] [(0, 0x80), (1, 0x01), (2, 0x01)] clear []))
      (fun t => t.pair 0 == 0xC000 && t.flags == nvzc 1 0 0 0 && t.pc == 0x0102) = true := by decide
/-- rolp r0p, r2, R160. -/
theorem test_rolp :
    ends (step (start [0xA202] [(0, 0x80), (1, 0x01), (2, 0x01)] clear []))
      (fun t => t.pair 0 == 0x0003 && t.flags == nvzc 0 0 0 0 && t.pc == 0x0102) = true := by decide
/-- rorp r0p, r2, R161. -/
theorem test_rorp :
    ends (step (start [0xA302] [(0, 0x80), (1, 0x01), (2, 0x01)] clear []))
      (fun t => t.pair 0 == 0xC000 && t.flags == nvzc 1 0 0 0 && t.pc == 0x0102) = true := by decide
/-- rolcp r0p, R162. -/
theorem test_rolcp :
    ends (step (start [0xA400] [(0, 0x12), (1, 0x34)] (nvzc 0 0 0 1) []))
      (fun t => t.pair 0 == 0x2469 && t.flags == nvzc 0 0 0 0 && t.pc == 0x0102) = true := by decide
/-- rorcp r0p, R163. -/
theorem test_rorcp :
    ends (step (start [0xA500] [(0, 0x12), (1, 0x34)] (nvzc 0 0 0 1) []))
      (fun t => t.pair 0 == 0x891A && t.flags == nvzc 1 0 0 0 && t.pc == 0x0102) = true := by decide
/-- cpy r0, r1, R165. -/
theorem test_cpy :
    ends (step (start [0xA601] [(0, 0x00), (1, 0x9C)] (nvzc 0 0 1 0) []))
      (fun t => t.reg 0 == 0x9C && t.flags == nvzc 0 0 1 0 && t.pc == 0x0102) = true := by decide
/-- cpyp r0p, r2p, R166. -/
theorem test_cpyp :
    ends (step (start [0xA702] [(2, 0xBE), (3, 0xEF)] clear []))
      (fun t => t.pair 0 == 0xBEEF && t.flags == nvzc 0 0 0 0 && t.pc == 0x0102) = true := by decide
/-- cpyfrf r0, R167. -/
theorem test_cpyfrf :
    ends (step (start [0xA800] [(0, 0xF0)] (nvzc 1 1 1 1) []))
      (fun t => t.reg 0 == 0x0F && t.flags == nvzc 1 1 1 1 && t.pc == 0x0102) = true := by decide
/-- cpytof r0, R168. -/
theorem test_cpytof :
    ends (step (start [0xA900] [(0, 0xF5)] clear []))
      (fun t => t.reg 0 == 0xF5 && t.flags == nvzc 0 1 1 0 && t.pc == 0x0102) = true := by decide
/-- swp r0p, r2p, R170. -/
theorem test_swp :
    ends (step (start [0xAA02] [(0, 0x11), (1, 0x11), (2, 0x22), (3, 0x22)] clear []))
      (fun t => t.pair 0 == 0x2222 && t.pair 2 == 0x1111 && t.flags == nvzc 0 0 0 0 && t.pc == 0x0102) = true := by decide
/-- call r0p, R171. -/
theorem test_call :
    ends (step (start [0xAB00] [(0, 0x04), (1, 0x00)] clear []))
      (fun t => t.pair 12 == 0x0102 && t.flags == nvzc 0 0 0 0 && t.pc == 0x0400) = true := by decide
/-- ldr r0, r2p, R180. -/
theorem test_ldr :
    ends (step (start [0xAC02] [(2, 0x20), (3, 0x00)] clear [(0x2000, 0x5A)]))
      (fun t => t.reg 0 == 0x5A && t.pair 2 == 0x2000 && t.flags == nvzc 0 0 0 0 && t.pc == 0x0102) = true := by decide
/-- str r0, r2p, R181. -/
theorem test_str :
    ends (step (start [0xAD02] [(0, 0xA5), (2, 0x20), (3, 0x00)] clear []))
      (fun t => t.byteAt 0x2000 == 0xA5 && t.pair 2 == 0x2000 && t.flags == nvzc 0 0 0 0 && t.pc == 0x0102) = true := by decide
/-- ldrab r0, r2p, R182. -/
theorem test_ldrab :
    ends (step (start [0xAE02] [(2, 0xFF), (3, 0xFF)] clear [(0x0000, 0x42)]))
      (fun t => t.reg 0 == 0x42 && t.pair 2 == 0x0000 && t.flags == nvzc 0 0 0 0 && t.pc == 0x0102) = true := by decide
/-- strab r3, r2p, R183. -/
theorem test_strab :
    ends (step (start [0xAF32] [(2, 0x20), (3, 0xFF)] clear []))
      (fun t => t.byteAt 0x2100 == 0x00 && t.pair 2 == 0x2100 && t.flags == nvzc 0 0 0 0 && t.pc == 0x0102) = true := by decide
/-- ldrsa r0, r2p, R184. -/
theorem test_ldrsa :
    ends (step (start [0xB002] [(2, 0x20), (3, 0x00)] clear [(0x2000, 0x66)]))
      (fun t => t.reg 0 == 0x66 && t.pair 2 == 0x1FFF && t.flags == nvzc 0 0 0 0 && t.pc == 0x0102) = true := by decide
/-- strsa r0, sp, R185. -/
theorem test_strsa :
    ends (step (start [0xB10A] [(0, 0xC3), (10, 0x2F), (11, 0xFF)] clear []))
      (fun t => t.byteAt 0x2FFF == 0xC3 && t.pair 10 == 0x2FFE && t.flags == nvzc 0 0 0 0 && t.pc == 0x0102) = true := by decide
/-- ldfab sp, R186. -/
theorem test_ldfab :
    ends (step (start [0xB20A] [(10, 0x2F), (11, 0xFE)] clear [(0x2FFF, 0xFA)]))
      (fun t => t.pair 10 == 0x2FFF && t.flags == nvzc 1 0 0 1 && t.pc == 0x0102) = true := by decide
/-- stfsa sp, R187. -/
theorem test_stfsa :
    ends (step (start [0xB30A] [(10, 0x2F), (11, 0xFF)] (nvzc 1 0 0 1) []))
      (fun t => t.byteAt 0x2FFF == 0x0A && t.pair 10 == 0x2FFE && t.flags == nvzc 1 0 0 1 && t.pc == 0x0102) = true := by decide
/-- ldp r0p, r2p, R188. -/
theorem test_ldp :
    ends (step (start [0xB402] [(2, 0x20), (3, 0x00)] clear [(0x2000, 0x12), (0x2001, 0x34)]))
      (fun t => t.pair 0 == 0x1234 && t.flags == nvzc 0 0 0 0 && t.pc == 0x0102) = true := by decide
/-- stp r0p, r2p, R189. -/
theorem test_stp :
    ends (step (start [0xB502] [(0, 0xBE), (1, 0xEF), (2, 0x20), (3, 0x00)] clear []))
      (fun t => t.byteAt 0x2000 == 0xBE && t.byteAt 0x2001 == 0xEF && t.flags == nvzc 0 0 0 0 && t.pc == 0x0102) = true := by decide
/-- ldpab r0p, sp, R190. -/
theorem test_ldpab :
    ends (step (start [0xB60A] [(10, 0x2F), (11, 0xFC)] clear [(0x2FFE, 0x12), (0x2FFF, 0x34)]))
      (fun t => t.pair 0 == 0x1234 && t.pair 10 == 0x2FFE && t.flags == nvzc 0 0 0 0 && t.pc == 0x0102) = true := by decide
/-- stpab r0p, r2p, R191. -/
theorem test_stpab :
    ends (step (start [0xB702] [(0, 0xCA), (1, 0xFE), (2, 0x20), (3, 0x00)] clear []))
      (fun t => t.byteAt 0x2002 == 0xCA && t.byteAt 0x2003 == 0xFE && t.pair 2 == 0x2002 && t.flags == nvzc 0 0 0 0 && t.pc == 0x0102) = true := by decide
/-- ldpsa r0p, r2p, R192. -/
theorem test_ldpsa :
    ends (step (start [0xB802] [(2, 0x20), (3, 0x00)] clear [(0x2000, 0x12), (0x2001, 0x34)]))
      (fun t => t.pair 0 == 0x1234 && t.pair 2 == 0x1FFE && t.flags == nvzc 0 0 0 0 && t.pc == 0x0102) = true := by decide
/-- stpsa r0p, r2p, R193. -/
theorem test_stpsa :
    ends (step (start [0xB902] [(0, 0xA1), (1, 0xB2), (2, 0x00), (3, 0x00)] clear []))
      (fun t => t.byteAt 0x0000 == 0xA1 && t.byteAt 0x0001 == 0xB2 && t.pair 2 == 0xFFFE && t.flags == nvzc 0 0 0 0 && t.pc == 0x0102) = true := by decide
/-- eni (a = b = 15), R195. -/
theorem test_eni :
    ends (step { start [0xBAFF] [] clear [] with ie := false })
      (fun t => t.ie && t.flags == nvzc 0 0 0 0 && t.pc == 0x0102) = true := by decide
/-- dii, R196. -/
theorem test_dii :
    ends (step { start [0xBB00] [] clear [] with ie := true })
      (fun t => !t.ie && t.flags == nvzc 0 0 0 0 && t.pc == 0x0102) = true := by decide
/-- reti, R197. -/
theorem test_reti :
    ends (step { start [0xBC00] [] clear [] with ie := false, ira := 0x0456 })
      (fun t => t.ie && t.ira == 0x0456 && t.flags == nvzc 0 0 0 0 && t.pc == 0x0456) = true := by decide
/-- swpira r0p, R198. -/
theorem test_swpira :
    ends (step { start [0xBD00] [(0, 0x11), (1, 0x11)] clear [] with ira := 0x2222 })
      (fun t => t.pair 0 == 0x2222 && t.ira == 0x1111 && t.flags == nvzc 0 0 0 0 && t.pc == 0x0102) = true := by decide
/-- cpypira r0p, R199. -/
theorem test_cpypira :
    ends (step { start [0xBE00] [(0, 0x11), (1, 0x11)] clear [] with ira := 0x2222 })
      (fun t => t.pair 0 == 0x2222 && t.ira == 0x2222 && t.flags == nvzc 0 0 0 0 && t.pc == 0x0102) = true := by decide
/-- ldrx r0, r2p, r4p, R210. -/
theorem test_ldrx :
    ends (step (start [0xC00A] [(2, 0x20), (3, 0x00), (4, 0x00), (5, 0x10)] clear [(0x2010, 0x5A)]))
      (fun t => t.reg 0 == 0x5A && t.flags == nvzc 0 0 0 0 && t.pc == 0x0102) = true := by decide
/-- strx r9, r2p, r2p, R211. -/
theorem test_strx :
    ends (step (start [0xC649] [(2, 0x10), (3, 0x00), (9, 0x77)] clear []))
      (fun t => t.byteAt 0x2000 == 0x77 && t.flags == nvzc 0 0 0 0 && t.pc == 0x0102) = true := by decide
/-- ldpx r6p, r2p, r4p, R212. -/
theorem test_ldpx :
    ends (step (start [0xC98A] [(2, 0x20), (3, 0x00), (4, 0xFF), (5, 0xFF)] clear [(0x1FFF, 0xAA), (0x2000, 0xBB)]))
      (fun t => t.pair 6 == 0xAABB && t.flags == nvzc 0 0 0 0 && t.pc == 0x0102) = true := by decide
/-- stpx r6p, r0p, r4p, R213. -/
theorem test_stpx :
    ends (step (start [0xCD82] [(0, 0x20), (1, 0x00), (4, 0x00), (5, 0x02), (6, 0xD0), (7, 0x0D)] clear []))
      (fun t => t.byteAt 0x2002 == 0xD0 && t.byteAt 0x2003 == 0x0D && t.flags == nvzc 0 0 0 0 && t.pc == 0x0102) = true := by decide
/-- bra +4, R221. -/
theorem test_bra :
    ends (step (start [0xD004] [] (nvzc 1 1 1 1) []))
      (fun t => t.flags == nvzc 1 1 1 1 && t.pc == 0x0106) = true := by decide
/-- bnv -2, R222. -/
theorem test_bnv :
    ends (step (start [0xD1FE] [] (nvzc 1 1 1 1) []))
      (fun t => t.flags == nvzc 1 1 1 1 && t.pc == 0x0102) = true := by decide
/-- bne +16, R223. -/
theorem test_bne :
    ends (step (start [0xD210] [] clear []))
      (fun t => t.flags == nvzc 0 0 0 0 && t.pc == 0x0112) = true := by decide
/-- beq +16, R224. -/
theorem test_beq :
    ends (step (start [0xD310] [] (nvzc 0 0 1 0) []))
      (fun t => t.flags == nvzc 0 0 1 0 && t.pc == 0x0112) = true := by decide
/-- bcc +16, R225. -/
theorem test_bcc :
    ends (step (start [0xD410] [] clear []))
      (fun t => t.flags == nvzc 0 0 0 0 && t.pc == 0x0112) = true := by decide
/-- bcs +16, R226. -/
theorem test_bcs :
    ends (step (start [0xD510] [] (nvzc 0 0 0 1) []))
      (fun t => t.flags == nvzc 0 0 0 1 && t.pc == 0x0112) = true := by decide
/-- bvc +16, R229. -/
theorem test_bvc :
    ends (step (start [0xD810] [] clear []))
      (fun t => t.flags == nvzc 0 0 0 0 && t.pc == 0x0112) = true := by decide
/-- bvs +16, R230. -/
theorem test_bvs :
    ends (step (start [0xD910] [] (nvzc 0 1 0 0) []))
      (fun t => t.flags == nvzc 0 1 0 0 && t.pc == 0x0112) = true := by decide
/-- bpl +16, R231. -/
theorem test_bpl :
    ends (step (start [0xDA10] [] clear []))
      (fun t => t.flags == nvzc 0 0 0 0 && t.pc == 0x0112) = true := by decide
/-- bmi +16, R232. -/
theorem test_bmi :
    ends (step (start [0xDB10] [] (nvzc 1 0 0 0) []))
      (fun t => t.flags == nvzc 1 0 0 0 && t.pc == 0x0112) = true := by decide
/-- cpypi r2p, 0xBEEF, R240. -/
theorem test_cpypi :
    ends (step (start [0xE010, 0xBEEF] [] clear []))
      (fun t => t.pair 2 == 0xBEEF && t.flags == nvzc 0 0 0 0 && t.pc == 0x0104) = true := by decide
/-- calli 0x0800, R241. -/
theorem test_calli :
    ends (step (start [0xE080, 0x0800] [] clear []))
      (fun t => t.pair 12 == 0x0104 && t.flags == nvzc 0 0 0 0 && t.pc == 0x0800) = true := by decide
/-- ldrxi r0, r2p, 0x0010, R242. -/
theorem test_ldrxi :
    ends (step (start [0xE101, 0x0010] [(2, 0x20), (3, 0x00)] clear [(0x2010, 0x5A)]))
      (fun t => t.reg 0 == 0x5A && t.flags == nvzc 0 0 0 0 && t.pc == 0x0104) = true := by decide
/-- strxi r5, r0p, 0x3000, R243. -/
theorem test_strxi :
    ends (step (start [0xE1A8, 0x3000] [(0, 0x00), (1, 0x01), (5, 0x99)] clear []))
      (fun t => t.byteAt 0x3001 == 0x99 && t.flags == nvzc 0 0 0 0 && t.pc == 0x0104) = true := by decide
/-- ldpxi r4p, r2p, 0x0002, R244. -/
theorem test_ldpxi :
    ends (step (start [0xE221, 0x0002] [(2, 0x20), (3, 0x00)] clear [(0x2002, 0xDE), (0x2003, 0xAD)]))
      (fun t => t.pair 4 == 0xDEAD && t.flags == nvzc 0 0 0 0 && t.pc == 0x0104) = true := by decide
/-- stpxi r4p, r2p, 0x0002, R245. -/
theorem test_stpxi :
    ends (step (start [0xE2A1, 0x0002] [(2, 0x20), (3, 0x00), (4, 0xF0), (5, 0x0D)] clear []))
      (fun t => t.byteAt 0x2002 == 0xF0 && t.byteAt 0x2003 == 0x0D && t.flags == nvzc 0 0 0 0 && t.pc == 0x0104) = true := by decide
/-- lslpi r2p, 15, R250. -/
theorem test_lslpi :
    ends (step (start [0xE41F] [(2, 0x84), (3, 0x21)] clear []))
      (fun t => t.pair 2 == 0x8000 && t.flags == nvzc 1 0 0 0 && t.pc == 0x0102) = true := by decide
/-- lsrpi r2p, 1, R251. -/
theorem test_lsrpi :
    ends (step (start [0xE491] [(2, 0x84), (3, 0x21)] clear []))
      (fun t => t.pair 2 == 0x4210 && t.flags == nvzc 0 0 0 0 && t.pc == 0x0102) = true := by decide
/-- asrpi r2p, 1, R252. -/
theorem test_asrpi :
    ends (step (start [0xE511] [(2, 0x84), (3, 0x21)] clear []))
      (fun t => t.pair 2 == 0xC210 && t.flags == nvzc 1 0 0 0 && t.pc == 0x0102) = true := by decide
/-- rolpi r2p, 15, R253. -/
theorem test_rolpi :
    ends (step (start [0xE59F] [(2, 0x84), (3, 0x21)] clear []))
      (fun t => t.pair 2 == 0xC210 && t.flags == nvzc 1 0 0 0 && t.pc == 0x0102) = true := by decide
/-- rorpi r2p, 1, R254. -/
theorem test_rorpi :
    ends (step (start [0xE611] [(2, 0x84), (3, 0x21)] clear []))
      (fun t => t.pair 2 == 0xC210 && t.flags == nvzc 1 0 0 0 && t.pc == 0x0102) = true := by decide
/-- bls, 0x10, R227 with C = 1 and Z = 1 (lower or same). -/
theorem test_bls :
    ends (step (start [0xD610] [] (nvzc 0 0 1 1) [])) (fun t => t.flags == nvzc 0 0 1 1 && t.pc == 0x0112) = true := by decide
/-- bhi, 0x10, R228 with C = 1 and Z = 0 (higher). -/
theorem test_bhi :
    ends (step (start [0xD710] [] (nvzc 0 0 0 1) [])) (fun t => t.flags == nvzc 0 0 0 1 && t.pc == 0x0112) = true := by decide

/-- The table of bls and bhi after the branch rows of Part 2: (C, Z) and whether bls and bhi branch, in the gloss variant. -/
theorem test_unsigned_branches_gloss :
    [(0, 0, true, false), (0, 1, true, false), (1, 0, false, true), (1, 1, true, false)].all (fun (c, z, ls, hi) =>
      blsTaken .gloss (nvzc 0 0 z c) == ls && bhiTaken .gloss (nvzc 0 0 z c) == hi) = true := by decide

/-- The same table in the literal variant. -/
theorem test_unsigned_branches_literal :
    [(0, 0, false, false), (0, 1, true, true), (1, 0, true, false), (1, 1, true, false)].all (fun (c, z, ls, hi) =>
      blsTaken .literal (nvzc 0 0 z c) == ls && bhiTaken .literal (nvzc 0 0 z c) == hi) = true := by decide

/-- A branch by -2 with BRANCH_SCALE 2 goes to 0x0100 + 2 - 4 (R220). -/
theorem test_branch_scale_two :
    ends (step { start [0xD0FE] [] clear [] with cfg := { Config.default with branchScale := 2 } }) (fun t => t.pc == 0x00FE) = true := by
  decide

/-- A rom cell ignores a store (R41). -/
theorem test_store_to_rom :
    ends (step (withMap (start [0xAD02] [(0, 0x55), (2, 0x20)] clear [(0x2000, 0x11)]) [⟨0x2000, 0x2FFF, .rom⟩] .ram))
      (fun t => t.byteAt 0x2000 == 0x11) = true := by decide

/-- A device takes a store (R41, R48). -/
theorem test_store_to_device :
    ends (step (withMap (start [0xAD02] [(0, 0x55), (2, 0x20)] clear []) [⟨0x2000, 0x2FFF, .device⟩] .ram))
      (fun t => t.devLog == [.write 0x2000 0x55] && t.mem == (start [0xAD02] [] clear []).mem) = true := by decide

/-- A store whose second byte is not mapped is refused as a whole (R42). -/
theorem test_store_half_unmapped :
    stops (step (withMap (start [0xB502] [(2, 0x20)] clear []) [⟨0x2001, 0x2001, .none⟩] .ram)) (.unmapped 0x2001) = true := by decide

/-- A word that selects no instruction is refused (R76). -/
theorem test_unallocated_word_refused : stops (step (start [0xBF00] [] clear [])) (.unallocated 0xBF00) = true := by decide

/-- Interrupt entry (R307). -/
theorem test_interrupt_entry :
    ends (step { start [0xBA00] [] clear [] with ie := true, irqs := [true, false] })
      (fun t => t.ira == 0x0100 && !t.ie && t.pc == 0x0008 && t.irqs == [false]) = true := by decide

/-- A policy that clears V and draws C after `and` (R30): r0, N and Z as ever, V 0, C the draw of this step. -/
theorem test_policy_clears_and_draws :
    let s := withPolicy (start [0x8C01] [(0, 0xF0), (1, 0x0F)] (nvzc 0 1 0 0) []) [⟨[.g2 .and], ⟨.computed, .cleared, .computed, .drawn⟩⟩]
    ∃ t, step s = .next t ∧ t.reg 0 = 0 ∧ t.flags = ⟨false, false, true, Config.drawnFlag t.draw .c⟩ := ⟨_, rfl, rfl, rfl⟩

/-- Policies that let a swap, a store, a branch, a call, eni and an interrupt entry write flags (R30, R31). -/
theorem test_policy_of_moves :
    let s := start [0xAA02] [(2, 0x80)] clear []
    ends (step (withPolicy s [⟨[.g2 .swp], .nz⟩])) (fun t => t.flags == nvzc 1 0 0 0 && t.pair 0 == 0x8000) &&
    ends (exec (.str 2 4) (withPolicy s [⟨[.g2 .str], .nz⟩])) (fun t => t.flags == nvzc 1 0 0 0) &&
    ends (exec (.bra 4) (withPolicy s [⟨[.g4 .bra], ⟨.set, .keep, .keep, .keep⟩⟩])) (fun t => t.flags == nvzc 1 0 0 0 && t.pc == 0x0104) &&
    ends (exec (.call 2) (withPolicy s [⟨[.g2 .call], ⟨.keep, .set, .keep, .keep⟩⟩])) (fun t => t.flags == nvzc 0 1 0 0) &&
    ends (exec .eni (withPolicy s [⟨[.g2 .eni], ⟨.keep, .keep, .set, .keep⟩⟩])) (fun t => t.flags == nvzc 0 0 1 0 && t.ie) &&
    ends (step { withPolicy s [⟨[.interruptEntry], ⟨.keep, .keep, .keep, .set⟩⟩] with ie := true, irqs := [true] })
      (fun t => t.flags == nvzc 0 0 0 1 && t.pc == 0x0008) = true := by decide

/-- A forced flag does not go through the policy (R29): C after `add` with a policy that keeps every flag. -/
theorem test_forced_carry :
    ends (step (withPolicy (start [0x8001] [(0, 0x80), (1, 0x80)] clear []) [])) (fun t => t.flags == nvzc 0 0 0 1) = true := by decide

/-- The program's first instruction runs from reset once it is placed (entry 15). -/
theorem test_first_instruction_after_reset :
    ends (step (State.reset.withFetchWord 16 0x7105)) (fun t => t.reg 1 == 0x05 && t.pc == 0x0102) = true := by decide

/-- A long instruction placed after reset. -/
theorem test_first_long_instruction_after_reset :
    ends (step (State.reset.withFetchWord 32 (0xE010 + 0x1234 * 2 ^ 16))) (fun t => t.pair 2 == 0x1234 && t.pc == 0x0104) = true := by
  decide

/-! ### Witnesses: states and operands that meet the hypotheses of each statement that has any -/

/-- What `ends` shows. -/
theorem exists_next {o : Out} {P : State → Bool} (h : ends o P = true) : ∃ t, o = .next t ∧ P t = true := by
  cases o with
  | next t => exact ⟨t, rfl, h⟩
  | fault f => nomatch f
  | refused r => exact absurd h (by simp [ends])

/-- What `stops` shows. -/
theorem refused_of {o : Out} {r : Refusal} (h : stops o r = true) : o = .refused r := by
  cases o with
  | next t => exact absurd h (by simp [stops])
  | fault f => nomatch f
  | refused r' => exact congrArg Host.Outcome.refused (by simpa [stops] using h)

/-- The bytes at the pc read as the instruction. -/
def readsAtPc (s : State) (i : Instr) : Bool :=
  match decode s.cfg.opcodeMap s.bytesAtPc with
  | .ok (j, _) => j == i
  | .error _ => false

theorem instrAtPc_of {s : State} {i : Instr} (h : readsAtPc s i = true)
    (hp : ∀ k < i.length, s.kindAt (s.pc + BitVec.ofNat 16 k) = .ram) : InstrAtPc s i := by
  refine ⟨?_, fun k hk => .inl (hp k hk)⟩
  unfold readsAtPc at h
  split at h
  · rename_i j rest e
    exact ⟨rest, by rw [e, eq_of_beq h]⟩
  · cases h

/-- The reset state runs `cpyi r1, 0x05`. -/
def running : State := start [0x7105] [] clear []

/-- A pointer pair r2p = 0x2000, a second pair r4p = 0x3000, bytes at both. -/
def pointing : State := start [] [(2, 0x20), (4, 0x30)] clear [(0x1FFF, 0x0F), (0x2000, 0x12), (0x2001, 0x34), (0x2002, 0x56)]

/-- The same with a device from 0x2000 on. -/
def onDevice : State := withMap pointing [⟨0x2000, 0x2FFF, .device⟩] .ram

/-- The same with nothing from 0x2000 on. -/
def onNothing : State := withMap pointing [⟨0x2000, 0x2FFF, .none⟩] .ram

theorem witness_DecodeOfEncodeIsTheInstruction : OpcodeMap.listOrder.wf = true ∧ (Instr.stpx 2 4 14).wellFormed = true := by decide

/-- A second opcode map, Group 1 numbered from its end. -/
theorem witness_another_opcode_map :
    OpcodeMap.wf { OpcodeMap.listOrder with g1 := OpcodeMap.listOrder.g1.reverse } = true := by decide

theorem witness_UnallocatedHalfwordRefusesTheStep :
    let s := start [0xBF00] [] clear []
    s.interruptTaken = false ∧ PlainCell s s.pc ∧ PlainCell s (s.pc + 1#16) ∧
      decodeHead s.cfg.opcodeMap (Word.ofBytes (s.byteAt s.pc) (s.byteAt (s.pc + 1#16))) = .error (.unallocatedOp 2 63) := by
  unfold PlainCell; decide

theorem witness_LengthFollowsTheLeadingBits_long :
    decodeHead OpcodeMap.listOrder 0xE2FF = .ok (.g5 .stpxi 15 14) ∧ (0xE2FF : Word).extractLsb' 10 6 = 0b111000#6 := by decide

theorem witness_LengthFollowsTheLeadingBits_short :
    decodeHead OpcodeMap.listOrder 0xE400 = .ok (.g6 .lslpi 0 0) ∧ (0xE400 : Word).extractLsb' 10 6 ≠ 0b111000#6 := by decide

theorem witness_IgnoredFieldsReadAlike : OpcodeMap.listOrder.wf = true := by decide

theorem witness_DecodedInstructionsAreWellFormed :
    decode OpcodeMap.listOrder [0x83, 0x35, 0xFF] = .ok (.addp 2 4, [0xFF]) := by decide

theorem witness_StepRunsTheDecodedInstruction : running.interruptTaken = false ∧ InstrAtPc running (.cpyi 1 5) :=
  ⟨by decide, instrAtPc_of (by decide) (by decide)⟩

/-- The same for an instruction of two halfwords. -/
theorem witness_StepRunsTheDecodedInstruction_long : InstrAtPc (start [0xE010, 0x1234] [] clear []) (.cpypi 2 0x1234) :=
  instrAtPc_of (by decide) (by decide)

theorem witness_InterruptEntryIsTheWholeStep :
    let s := { running with ie := true, irqs := [true] }
    s.ie = true ∧ s.irq = true := by decide

theorem witness_RequestIgnoredWhileDisabled : running.ie = false := by decide

theorem witness_UnmappedFetchRefusesTheStep_first :
    let s := withMap running [] .none
    s.interruptTaken = false ∧ s.kindAt s.pc = .none := by decide

theorem witness_UnmappedFetchRefusesTheStep_second :
    let s := withMap running [⟨0, 0x0100, .ram⟩] .none
    PlainCell s s.pc ∧ s.kindAt (s.pc + 1#16) = .none := by unfold PlainCell; decide

theorem witness_UnmappedFetchRefusesTheStep_immediate :
    let s := withMap (start [0xE010, 0x1234] [] clear []) [⟨0, 0x0101, .rom⟩] .none
    PlainCell s s.pc ∧ PlainCell s (s.pc + 1#16) ∧ s.kindAt (s.pc + 2#16) = .none ∧
      decodeHead s.cfg.opcodeMap (Word.ofBytes (s.byteAt s.pc) (s.byteAt (s.pc + 1#16))) = .ok (.g5 .cpypi 2 0) ∧
      (Head.g5 .cpypi 2 0).length = 4 := by unfold PlainCell; decide

theorem witness_UnmappedFetchRefusesTheStep_immediate_second :
    let s := withMap (start [0xE010, 0x1234] [] clear []) [⟨0, 0x0102, .rom⟩] .none
    s.interruptTaken = false ∧ PlainCell s s.pc ∧ PlainCell s (s.pc + 1#16) ∧ PlainCell s (s.pc + 2#16) ∧
      s.kindAt (s.pc + 3#16) = .none ∧
      decodeHead s.cfg.opcodeMap (Word.ofBytes (s.byteAt s.pc) (s.byteAt (s.pc + 1#16))) = .ok (.g5 .cpypi 2 0) ∧
      (Head.g5 .cpypi 2 0).length = 4 := by unfold PlainCell; decide

theorem witness_FirstStepAfterReset : AfterReset running ∧ InstrAtPc running (.cpyi 1 5) :=
  ⟨by unfold AfterReset; decide, instrAtPc_of (by decide) (by decide)⟩

theorem witness_EndedRunStaysEnded_disabled : RunEnded { start [0xD0FE] [] clear [] with irqs := [true, true] } :=
  ⟨instrAtPc_of (by decide) (by decide), by decide, .inl (by decide)⟩

theorem witness_EndedRunStaysEnded_quiet : RunEnded { start [0xD0FE] [] clear [] with ie := true, irqs := [false] } :=
  ⟨instrAtPc_of (by decide) (by decide), by decide, .inr (by decide)⟩

theorem witness_StepKeepsMemoryCanonical :
    let s := start [0xAD02] [(0, 0x55), (2, 0x20)] clear [(0x2000, 0x11)]
    CanonicalMemory s ∧ ∃ t, step s = .next t ∧ (t.byteAt 0x2000 == 0x55) = true :=
  ⟨by unfold CanonicalMemory; decide, exists_next (by decide)⟩

theorem witness_StepKeepsTheParameters : ∃ t, step running = .next t ∧ (t.reg 1 == 5) = true := exists_next (by decide)

theorem witness_OneRequestLevelPerStep :
    ∃ t, step { running with irqs := [true, false] } = .next t ∧ (t.irqs == [false]) = true := exists_next (by decide)

theorem witness_RomKeepsItsContent :
    let s := withMap (start [0xAD02] [(0, 0x55), (2, 0x20)] clear [(0x2000, 0x11)]) [⟨0x2000, 0x2FFF, .rom⟩] .ram
    s.kindAt 0x2000 = .rom ∧ ∃ t, step s = .next t ∧ (t.byteAt 0x2000 == 0x11) = true := ⟨by decide, exists_next (by decide)⟩

theorem witness_OnlyEniDiiRetiWriteIe :
    (∃ t, exec .eni running = .next t ∧ (t.ie != running.ie) = true) ∧
    (∃ t, exec .dii { running with ie := true } = .next t ∧ (t.ie != true) = true) ∧
    (∃ t, exec .reti running = .next t ∧ (t.ie != running.ie) = true) :=
  ⟨exists_next (by decide), exists_next (by decide), exists_next (by decide)⟩

theorem witness_OnlySwpiraWritesIra : ∃ t, exec (.swpira 2) pointing = .next t ∧ (t.ira != pointing.ira) = true :=
  exists_next (by decide)

theorem witness_OnlyStoresChangeMemory :
    isStore (.ldrab 0 2) = false ∧ ∃ t, exec (.ldrab 0 2) pointing = .next t ∧ (t.reg 0 == 0x34) = true :=
  ⟨by decide, exists_next (by decide)⟩

theorem witness_MovesAndBranchesKeepTheFlags :
    keepsFlags (.cpyi 1 0) = true ∧ DefaultFlags running ∧ ∃ t, exec (.cpyi 1 0) running = .next t ∧ (t.reg 1 == 0) = true :=
  ⟨by decide, by unfold DefaultFlags; decide, exists_next (by decide)⟩

theorem witness_AtMostTwoDataAccesses :
    ∃ t, exec (.ldp 0 2) onDevice = .next t ∧ (t.devLog == [.read 0x2001, .read 0x2000]) = true := exists_next (by decide)

theorem witness_RefusalOnlyWhereNothingIsMapped_refused : exec (.ldr 0 2) onNothing = .refused (.unmapped 0x2000) :=
  refused_of (by decide)

theorem witness_RefusalOnlyWhereNothingIsMapped_mapped : ∀ a, Mapped running a := fun a h => by
  have k : running.kindAt a = .ram := rfl
  rw [k] at h
  cases h

/-- The premise of the flag clauses of ByteSums, ByteDifferences, PairSums, PairDifferences, Comparisons, SubtractionAliases, Products,
ByteLogic, PairLogic, the shift and rotate statements, Copies, IraMoves and the loads; it holds at reset. -/
theorem witness_DefaultFlags : DefaultFlags State.reset ∧ DefaultFlags pointing := by unfold DefaultFlags; decide

/-- The premise of the masked shifts (R148). -/
theorem witness_masked_shift : State.shiftAmount { running with cfg := { Config.default with shiftCountMode := .masked } } 8 9 = 1 := by
  decide

/-- The count of a masked shift by 9 is 1: `lsl` (R148, R150). -/
theorem test_masked_shift :
    ends (exec (.lsl 0 1) { start [] [(0, 0x81), (1, 9)] clear [] with cfg := { Config.default with shiftCountMode := .masked } })
      (fun t => t.reg 0 == 0x02) = true := by decide

theorem witness_FlagsByteRoundTrip :
    running.cfg.flagBitsDistinct = true ∧ ∃ t, exec (.cpyfrf 1) running = .next t ∧ ends (exec (.cpytof 1) t) (fun _ => true) = true :=
  ⟨by decide, exists_next (by decide)⟩

theorem witness_Calls_link_register : SamePair 13 lrPair ∧ ¬ SamePair 2 lrPair := by unfold SamePair; decide

/-- Mapped cells of three kinds, for ByteLoads, PairLoads, ByteStores, PairStores and the forms with update. -/
theorem witness_Mapped :
    (Mapped pointing (pointing.pair 2) ∧ Mapped pointing (pointing.pair 2 + 1#16) ∧ Mapped pointing (pointing.pair 2 + 2#16) ∧
      Mapped pointing (pointing.pair 2 + 2#16 + 1#16)) ∧
    (Mapped onDevice (onDevice.pair 2) ∧ Mapped onDevice (onDevice.pair 2 + 1#16) ∧ Mapped onDevice (onDevice.pair 2 + 2#16) ∧
      Mapped onDevice (onDevice.pair 2 + 2#16 + 1#16)) := by unfold Mapped; decide

/-- Indexed and immediate addresses, with a wrap past 0xFFFF. -/
theorem witness_Mapped_indexed :
    Mapped pointing (pointing.pair 2 + pointing.pair 4) ∧ Mapped pointing (pointing.pair 2 + 0xE000#16) ∧
    Mapped pointing (pointing.pair 2 + 0xDFFF#16) ∧ Mapped pointing (pointing.pair 2 + 0xDFFF#16 + 1#16) := by
  unfold Mapped; decide

/-- The three cases of ByteLoadsWithUpdate and ByteStoresWithUpdate: a register outside, high in and low in the pointer. -/
theorem witness_byte_update_cases :
    ((0 : Reg) ≠ pairHi 2 ∧ (0 : Reg) ≠ pairLo 2) ∧ (2 : Reg) = pairHi 2 ∧ (3 : Reg) = pairLo 2 := by decide

/-- The two cases of PairLoadsWithUpdate and PairStoresWithUpdate. -/
theorem witness_pair_update_cases : SamePair 3 2 ∧ ¬ SamePair 0 2 := by unfold SamePair; decide

/-- `ldpsa r2p, r2p`: the loaded pair less 2 (R192). -/
theorem test_ldpsa_same_pair : ends (exec (.ldpsa 2 2) pointing) (fun t => t.pair 2 == 0x1232) = true := by decide

/-- Nothing at the address of a one-byte access. -/
theorem witness_UnmappedDataAccessIsRefused_byte :
    onNothing.kindAt (onNothing.pair 2) = .none ∧ onNothing.kindAt (onNothing.pair 2 + 1#16) = .none ∧
    onNothing.kindAt (onNothing.pair 2 + onNothing.pair 6) = .none ∧ onNothing.kindAt (onNothing.pair 2 + 0x0010#16) = .none := by decide

/-- Nothing at the second byte of a two-byte access. -/
theorem witness_UnmappedDataAccessIsRefused_second_byte :
    let s := withMap pointing [⟨0x2001, 0x2001, .none⟩] .ram
    let u := withMap pointing [⟨0x2003, 0x2003, .none⟩] .ram
    (Mapped s (s.pair 2) ∧ s.kindAt (s.pair 2 + 1#16) = .none) ∧
    (Mapped u (u.pair 2 + 2#16) ∧ u.kindAt (u.pair 2 + 2#16 + 1#16) = .none) ∧
    (Mapped s (s.pair 2 + s.pair 6) ∧ s.kindAt (s.pair 2 + s.pair 6 + 1#16) = .none) := by unfold Mapped; decide

theorem witness_PushThenPopRestores :
    (pointing.kindAt (pointing.pair 2) = .ram ∧ pointing.kindAt (pointing.pair 2 + 1#16) = .ram) ∧
    ((0 : Reg) ≠ pairHi 2 ∧ (0 : Reg) ≠ pairLo 2) ∧ ¬ SamePair 4 2 ∧
    pointing.cfg.stfsaDirection = .subtract ∧ pointing.cfg.flagBitsDistinct = true := by unfold SamePair; decide

theorem witness_EntryThenReturnResumes :
    let s := { running with ie := true, irqs := [true] }
    s.ie = true ∧ s.irq = true ∧ ∃ t, step s = .next t ∧ (t.ira == 0x0100) = true :=
  ⟨by decide, by decide, exists_next (by decide)⟩

theorem witness_BranchConditions :
    running.cfg.unsignedBranch = .gloss ∧
    State.cfg { running with cfg := { Config.default with unsignedBranch := .literal } } = { Config.default with unsignedBranch := .literal } := by
  decide

theorem witness_BranchesAfterCompare : running.cfg.unsignedBranch = .gloss := by decide

theorem witness_SignedOrderAfterCompare :
    DefaultFlags pointing ∧ (∃ t, exec (.cmp 2 4) pointing = .next t ∧ (t.flags == nvzc 1 0 0 0) = true) ∧
    (∃ u, exec (.cmpp 2 4) pointing = .next u ∧ (u.flags == nvzc 1 0 0 0) = true) :=
  ⟨by unfold DefaultFlags; decide, exists_next (by decide), exists_next (by decide)⟩

end Sys2Proof.Tests
end

/-! # What an access to memory leaves unchanged -/

namespace Sys2Proof.Machine

/-! ### How an instruction that accesses memory continues -/

/-- An instruction whose access has succeeded goes on with what the access answers. -/
theorem finish_bind_eq_next {α : Type} {x : Except Refusal α} {k : α → Except Refusal State} {t : State} :
    finish (x >>= k) = .next t ↔ ∃ a, x = .ok a ∧ finish (k a) = .next t := by
  cases x <;> simp [finish, bind, Except.bind]

/-! ### Accesses -/

/-- Nothing but memory and the record of device accesses may differ. -/
def OnlyAccessed (s t : State) : Prop := ∃ m l, t = { s with mem := m, devLog := l }

theorem OnlyAccessed.of_load8 {s t : State} {a : Word} {v : Byte} (h : s.load8 a = .ok (v, t)) : OnlyAccessed s t := by
  obtain ⟨l, rfl⟩ := s.load8_ok h
  exact ⟨s.mem, l, rfl⟩

theorem OnlyAccessed.of_load16 {s t : State} {a v : Word} (h : s.load16 a = .ok (v, t)) : OnlyAccessed s t := by
  obtain ⟨l, rfl⟩ := s.load16_ok h
  exact ⟨s.mem, l, rfl⟩

theorem OnlyAccessed.of_store8 {s t : State} {a : Word} {v : Byte} (h : s.store8 a v = .ok t) : OnlyAccessed s t := by
  obtain ⟨l, ⟨rfl, _⟩ | ⟨rfl, _⟩⟩ := s.store8_ok h
  · exact ⟨s.mem, l, rfl⟩
  · exact ⟨(s.setByte a v).mem, s.devLog, rfl⟩

theorem OnlyAccessed.of_store16 {s t : State} {a v : Word} (h : s.store16 a v = .ok t) : OnlyAccessed s t := by
  obtain ⟨u, high, low⟩ := s.store16_ok h
  obtain ⟨m, l, rfl⟩ := OnlyAccessed.of_store8 high
  obtain ⟨m', l', rfl⟩ := OnlyAccessed.of_store8 low
  exact ⟨m', l', rfl⟩

end Sys2Proof.Machine

/-! # The frame of all 98 instructions

Said once: what an instruction that goes on does outside the registers, memory and the record of device accesses. -/

namespace Sys2Proof

/-- Who writes the flags when an instruction runs: its mnemonic. -/
def Instr.flagWriter (i : Instr) : FlagWriter :=
  match i.head with
  | .g1 op _ _ => .g1 op
  | .g2 op _ _ => .g2 op
  | .g3 op _ _ _ => .g3 op
  | .g4 op _ => .g4 op
  | .g5 op _ _ => .g5 op
  | .g6 op _ _ => .g6 op

namespace Machine

/-- What the instruction i does between s and t outside the registers, memory and the record of device accesses. -/
structure ExecFrame (i : Instr) (s t : State) : Prop where
  cfg : t.cfg = s.cfg
  irqs : t.irqs = s.irqs
  draw : t.draw = s.draw
  ie : t.ie = s.ie ∨ i = .eni ∨ i = .dii ∨ i = .reti
  ira : t.ira = s.ira ∨ ∃ a, i = .swpira a
  flags : keepsFlags i = true → ∃ f, t.flags = s.policyFlags i.flagWriter f

namespace ExecFrame

variable {i : Instr} {s t u : State}

/-! ### The parts of an instruction -/

/-- Registers are written, and flags by the policy of the instruction's own mnemonic. -/
theorem of_put (r : Vector Byte 16) (f : Flags) :
    ExecFrame i s { s with regs := r, flags := s.policyFlags i.flagWriter f } :=
  ⟨rfl, rfl, rfl, .inl rfl, .inl rfl, fun _ => ⟨f, rfl⟩⟩

/-- Registers and flags are written by an instruction whose row of R31 is not "-". -/
theorem of_result (hi : keepsFlags i = false) (r : Vector Byte 16) (f : Flags) :
    ExecFrame i s { s with regs := r, flags := f } :=
  ⟨rfl, rfl, rfl, .inl rfl, .inl rfl, fun hk => absurd (hi.symm.trans hk) (by decide)⟩

/-- An access stands before the rest of the instruction. -/
theorem of_access (hu : OnlyAccessed s u) (h : ExecFrame i u t) : ExecFrame i s t := by
  obtain ⟨m, l, rfl⟩ := hu
  exact ⟨h.cfg, h.irqs, h.draw, h.ie, h.ira, h.flags⟩

/-- A pointer moves before the rest of the instruction. -/
theorem of_pairUp {b : Reg} {n : Word} (h : ExecFrame i (s.pairUp b n) t) : ExecFrame i s t :=
  ⟨h.cfg, h.irqs, h.draw, h.ie, h.ira, h.flags⟩

/-- A pointer moves after the rest of the instruction. -/
theorem pairUp (h : ExecFrame i s t) (b : Reg) (n : Word) : ExecFrame i s (t.pairUp b n) :=
  ⟨h.cfg, h.irqs, h.draw, h.ie, h.ira, h.flags⟩

theorem pairDown (h : ExecFrame i s t) (b : Reg) (n : Word) : ExecFrame i s (t.pairDown b n) :=
  ⟨h.cfg, h.irqs, h.draw, h.ie, h.ira, h.flags⟩

theorem of_storeReg {ea : Word} {v : Byte} (h : s.storeReg i.flagWriter ea v = .ok t) : ExecFrame i s t := by
  obtain ⟨u, hu, rfl⟩ := s.storeReg_ok h
  exact .of_access (.of_store8 hu) (.of_put _ _)

theorem of_storePair {ea v : Word} (h : s.storePair i.flagWriter ea v = .ok t) : ExecFrame i s t := by
  obtain ⟨u, hu, rfl⟩ := s.storePair_ok h
  exact .of_access (.of_store16 hu) (.of_put _ _)

theorem of_branch {op : Op4} (hi : i.flagWriter = .g4 op) (cond : Bool) (imm : Byte) :
    ExecFrame i s (s.branch op cond imm) := by
  rcases s.branch_cases op cond imm with ⟨_, e⟩ | ⟨_, e⟩
  · rw [e, ← hi]; exact .of_put _ _
  · rw [e, ← hi]; exact .of_put _ _

end ExecFrame

/-! ### Every instruction -/

/-- What ie, ira, the flags, the parameters, irq and the draws are after an instruction that goes on. -/
theorem exec_frame {i : Instr} {s t : State} (h : exec i s = .next t) : ExecFrame i s t := by
  cases i with
  | addi | adci | addpbi | subpbi | cmpi | andi | orri
  | add | adc | addpb | addp | sub | sbc | subpb | subp | cmp | cmpp | umul | smul
  | and | orr | xor | andp | orrp | xorp | inv | invp | neg | negp | abs | absp
  | lsl | lsr | asr | rol | ror | rolc | rorc | lslp | lsrp | asrp | rolp | rorp | rolcp | rorcp
  | lslpi | lsrpi | asrpi | rolpi | rorpi | cpytof =>
    cases h
    exact .of_result rfl _ _
  | cpyi | cpy | cpyp | cpypi | cpyfrf | swp | call | calli | cpypira =>
    cases h
    exact .of_put _ _
  | bra | bnv | bne | beq | bcc | bcs | bls | bhi | bvc | bvs | bpl | bmi =>
    cases h
    exact .of_branch rfl _ _
  | eni | dii | reti =>
    cases h
    exact ⟨rfl, rfl, rfl, .inr (by simp), .inl rfl, fun _ => ⟨_, rfl⟩⟩
  | swpira a =>
    cases h
    exact ⟨rfl, rfl, rfl, .inl rfl, .inr ⟨a, rfl⟩, fun _ => ⟨_, rfl⟩⟩
  | ldr | ldrx | ldrxi | ldrsa =>
    obtain ⟨⟨v, u⟩, hu, hk⟩ := finish_bind_eq_next.mp h
    cases hk
    exact .of_access (.of_load8 hu) (.of_put _ _)
  | ldp | ldpx | ldpxi | ldpsa =>
    obtain ⟨⟨v, u⟩, hu, hk⟩ := finish_bind_eq_next.mp h
    cases hk
    exact .of_access (.of_load16 hu) (.of_put _ _)
  | ldrab =>
    obtain ⟨⟨v, u⟩, hu, hk⟩ := finish_bind_eq_next.mp h
    cases hk
    exact .of_pairUp (.of_access (.of_load8 hu) (.of_put _ _))
  | ldpab =>
    obtain ⟨⟨v, u⟩, hu, hk⟩ := finish_bind_eq_next.mp h
    cases hk
    exact .of_pairUp (.of_access (.of_load16 hu) (.of_put _ _))
  | ldfab =>
    obtain ⟨⟨v, u⟩, hu, hk⟩ := finish_bind_eq_next.mp h
    cases hk
    exact .of_pairUp (.of_access (.of_load8 hu) (.of_result rfl _ _))
  | str | strx | strxi => exact .of_storeReg (finish_eq_next.mp h)
  | stp | stpx | stpxi => exact .of_storePair (finish_eq_next.mp h)
  | strab => exact .of_pairUp (.of_storeReg (finish_eq_next.mp h))
  | stpab => exact .of_pairUp (.of_storePair (finish_eq_next.mp h))
  | strsa =>
    obtain ⟨u, hu, hk⟩ := finish_bind_eq_next.mp h
    cases hk
    exact .pairDown (.of_storeReg hu) _ _
  | stpsa =>
    obtain ⟨u, hu, hk⟩ := finish_bind_eq_next.mp h
    cases hk
    exact .pairDown (.of_storePair hu) _ _
  | stfsa =>
    obtain ⟨u, hu, hk⟩ := finish_bind_eq_next.mp h
    split at hk
    · cases hk
      exact .pairDown (.of_storeReg hu) _ _
    · cases hk
      exact .pairUp (.of_storeReg hu) _ _

end Machine

end Sys2Proof

/-! # The step: the two things it can be, and the fetch of an instruction that stands at the pc -/

namespace Sys2Proof

/-- The address of the last byte of a long instruction, as its second 16-bit fetch forms it. -/
theorem Word.add_two_add_one (a : Word) : a + 2#16 + 1#16 = a + 3#16 := by bv_omega

/-- What decodes from four bytes: the head says the instruction, with the second halfword if it is a long one. -/
theorem decode_four_ok {m : OpcodeMap} {b0 b1 b2 b3 : Byte} {i : Instr} {rest : List Byte}
    (h : decode m [b0, b1, b2, b3] = .ok (i, rest)) :
    ∃ hd, decodeHead m (Word.ofBytes b0 b1) = .ok hd ∧
      i = hd.instr (if hd.isLong then Word.ofBytes b2 b3 else 0) := by
  simp only [decode] at h
  cases hhd : decodeHead m (Word.ofBytes b0 b1) with
  | error e => simp [hhd] at h
  | ok hd =>
    cases hl : hd.isLong with
    | false =>
      obtain ⟨rfl, rfl⟩ : hd.instr 0 = i ∧ [b2, b3] = rest := by simpa [hhd, hl] using h
      exact ⟨hd, rfl, by simp [hl]⟩
    | true =>
      obtain ⟨rfl, rfl⟩ : hd.instr (Word.ofBytes b2 b3) = i ∧ [] = rest := by simpa [hhd, hl] using h
      exact ⟨hd, rfl, by simp [hl]⟩

namespace Machine

/-! ### The two kinds of step -/

/-- A step that goes on is an interrupt entry, or a fetch and the instruction fetched. -/
theorem step_eq_next {s t : State} :
    step s = .next t ↔
      s.interruptTaken = true ∧ t = s.sampled.takeInterrupt ∨
      s.interruptTaken = false ∧ ∃ i u, s.sampled.fetch = .ok (i, u) ∧ exec i u = .next t := by
  unfold step
  cases s.interruptTaken with
  | true => simp [eq_comm]
  | false =>
    cases s.sampled.fetch with
    | error r => simp
    | ok p => simp [Prod.ext_iff]

theorem step_of_fetch {s u : State} {i : Instr} (hs : s.interruptTaken = false) (hf : s.sampled.fetch = .ok (i, u)) :
    step s = exec i u := by
  simp [step, hs, hf]

theorem State.interruptTaken_of_ie {s : State} (h : s.ie = false) : s.interruptTaken = false := by
  simp [State.interruptTaken, h]

/-! ### The fetch of an instruction in plain cells -/

section

variable {s : State} {hd : Head} (h0 : PlainCell s s.pc) (h1 : PlainCell s (s.pc + 1#16))
  (hhd : decodeHead s.cfg.opcodeMap (Word.ofBytes (s.byteAt s.pc) (s.byteAt (s.pc + 1#16))) = .ok hd)
include h0 h1 hhd

theorem State.fetch_short (hl : hd.isLong = false) : s.fetch = .ok (hd.instr 0, s.setPc (s.pc + 2#16)) := by
  simp [State.fetch, s.load16_plain h0 h1, bind, Except.bind, hhd, hl]

theorem State.fetch_long (hl : hd.isLong = true) (h2 : PlainCell s (s.pc + 2#16)) (h3 : PlainCell s (s.pc + 2#16 + 1#16)) :
    s.fetch = .ok (hd.instr (Word.ofBytes (s.byteAt (s.pc + 2#16)) (s.byteAt (s.pc + 2#16 + 1#16))),
      s.setPc (s.pc + 4#16)) := by
  simp [State.fetch, s.load16_plain h0 h1, s.load16_plain h2 h3, bind, Except.bind, hhd, hl]

end

/-- R24: the fetch of an instruction that stands at the pc answers it and advances the pc past it. -/
theorem State.fetch_of_instrAtPc {s : State} {i : Instr} (h : InstrAtPc s i) :
    s.fetch = .ok (i, s.setPc (s.pc + BitVec.ofNat 16 i.length)) := by
  obtain ⟨⟨rest, hdec⟩, hcells⟩ := h
  obtain ⟨hd, hhd, rfl⟩ := decode_four_ok hdec
  rw [Head.length_instr, Head.length] at hcells ⊢
  cases hl : hd.isLong with
  | false =>
    simp only [hl, Bool.false_eq_true, if_false] at hcells ⊢
    have h0 : PlainCell s s.pc := by simpa using hcells 0 (by decide)
    exact State.fetch_short h0 (hcells 1 (by decide)) hhd hl
  | true =>
    simp only [hl, if_true] at hcells ⊢
    have h0 : PlainCell s s.pc := by simpa using hcells 0 (by decide)
    have h3 := hcells 3 (by decide)
    rw [← Word.add_two_add_one] at h3 ⊢
    exact State.fetch_long h0 (hcells 1 (by decide)) hhd hl (hcells 2 (by decide)) h3

end Machine

end Sys2Proof

/-! # Flags of the "-" rows, and branches -/

namespace Sys2Proof.Machine

/-! ### The "-" rows of R31 -/

/-- The instructions that `keepsFlags` lists are on the "-" rows of the default table; each row is found by evaluation. -/
theorem default_row_of_keepsFlags {i : Instr} (h : keepsFlags i = true) :
    FlagPolicy.default.row i.flagWriter = .unchanged := by
  cases i <;> cases h <;> rfl

theorem exec_flags_of_keepsFlags {i : Instr} {s t : State} (hi : keepsFlags i = true) (hd : DefaultFlags s)
    (h : exec i s = .next t) : t.flags = s.flags := by
  obtain ⟨f, hf⟩ := (exec_frame h).flags hi
  rw [hf]
  exact State.policyFlags_unchanged hd (default_row_of_keepsFlags hi) f

/-! ### Branches -/

/-- The offset of a branch, as an address, is its signed value modulo 2^16. -/
theorem toNat_sext16 (imm : Byte) : ((sext16 imm).toNat : Int) = imm.toInt % 2 ^ 16 := by
  rw [sext16, BitVec.signExtend, BitVec.toNat_ofInt]
  exact Int.toNat_of_nonneg (Int.emod_nonneg _ (by decide))

/-- R220: the target of a branch, over the integers. -/
theorem toNat_branchTarget (pc scale : Word) (imm : Byte) :
    ((pc + scale * sext16 imm).toNat : Int) = (pc.toNat + scale.toNat * imm.toInt) % 2 ^ 16 := by
  rw [BitVec.toNat_add, BitVec.toNat_mul]
  push_cast
  rw [toNat_sext16]
  simp [Int.add_emod, Int.mul_emod]

variable (s : State)

theorem State.sameRegsExcept_setPc (t : Word) : SameRegsExcept [14, 15] s (s.setPc t) := by
  intro r hr
  obtain ⟨hne14, hne15⟩ : r ≠ 14 ∧ r ≠ 15 := by simpa using hr
  exact s.reg_setPair_ne hne14 hne15 t

theorem State.pc_branch (op : Op4) (cond : Bool) (imm : Byte) :
    (s.branch op cond imm).pc = if cond then s.pc + s.cfg.branchScale * sext16 imm else s.pc := by
  cases cond <;> simp [State.branch]

theorem State.onlyRegsAndFlags_branch (op : Op4) (cond : Bool) (imm : Byte) :
    OnlyRegsAndFlags [14, 15] s (s.branch op cond imm) := by
  rcases s.branch_cases op cond imm with ⟨_, e⟩ | ⟨_, e⟩ <;> rw [e]
  · exact ⟨s.sameRegsExcept_setPc _, fun _ => rfl, ⟨rfl, rfl, rfl, rfl, rfl⟩, rfl⟩
  · exact ⟨fun _ _ => rfl, fun _ => rfl, ⟨rfl, rfl, rfl, rfl, rfl⟩, rfl⟩

/-- An instruction of a "-" row that ends in `State.branch` does what R220 says of a branch under its condition. -/
theorem branches_of_exec {s : State} {i : Instr} {op : Op4} {cond : Bool} {imm : Byte} (hi : keepsFlags i = true)
    (h : exec i s = .next (s.branch op cond imm)) : Branches i s cond imm := by
  refine ⟨_, h, ?_, s.onlyRegsAndFlags_branch op cond imm, fun hd => exec_flags_of_keepsFlags hi hd h⟩
  rw [State.pc_branch]
  cases cond with
  | true => exact toNat_branchTarget s.pc s.cfg.branchScale imm
  | false =>
    have hpc := s.pc.isLt
    simp only [Bool.false_eq_true, if_false, add_zero]
    omega

end Sys2Proof.Machine

/-! # The obligations on the state -/

namespace Sys2Proof.Machine

/-- Settles O17: an interrupt entry, the fetch and every instruction keep the parameters. -/
theorem stepKeepsTheParameters : Obligations.StepKeepsTheParameters := by
  intro s t h
  rcases step_eq_next.mp h with ⟨_, rfl⟩ | ⟨_, i, u, hfetch, hexec⟩
  · rfl
  · obtain ⟨l, rfl⟩ := s.sampled.fetch_ok hfetch
    exact (exec_frame hexec).cfg

/-- Settles O20, by the frame of all instructions. -/
theorem onlyEniDiiRetiWriteIe : Obligations.OnlyEniDiiRetiWriteIe :=
  fun _ _ _ hexec hne => (exec_frame hexec).ie.resolve_left hne

/-- Settles O21, by the frame of all instructions. -/
theorem onlySwpiraWritesIra : Obligations.OnlySwpiraWritesIra :=
  fun _ _ _ hexec hne => (exec_frame hexec).ira.resolve_left hne

/-- Settles O23: such an instruction writes its flags by policy only, and its row of the default table is "-". -/
theorem movesAndBranchesKeepTheFlags : Obligations.MovesAndBranchesKeepTheFlags :=
  fun _ _ _ hi hd hexec => exec_flags_of_keepsFlags hi hd hexec

/-- Settles O58: each arm is `State.branch` under the condition of its rule; those of bls and bhi depend on the variant. -/
theorem branchConditions : Obligations.BranchConditions := by
  intro s imm
  have bls : exec (.bls imm) s = .next (s.branch .bls (blsTaken s.cfg.unsignedBranch s.flags) imm) := rfl
  have bhi : exec (.bhi imm) s = .next (s.branch .bhi (bhiTaken s.cfg.unsignedBranch s.flags) imm) := rfl
  simp only [beq_true, beq_false]
  refine ⟨branches_of_exec rfl rfl, branches_of_exec rfl rfl, branches_of_exec rfl rfl, branches_of_exec rfl rfl,
    branches_of_exec rfl rfl, branches_of_exec rfl rfl, fun gloss => ⟨?_, ?_⟩, fun literal => ⟨?_, ?_⟩,
    branches_of_exec rfl rfl, branches_of_exec rfl rfl, branches_of_exec rfl rfl, branches_of_exec rfl rfl⟩
  · exact branches_of_exec rfl (by rw [bls, gloss]; rfl)
  · exact branches_of_exec rfl (by rw [bhi, gloss]; rfl)
  · exact branches_of_exec rfl (by rw [bls, literal]; rfl)
  · exact branches_of_exec rfl (by rw [bhi, literal]; rfl)

/-- Settles O8: using up a level of irq changes neither the pc nor what stands there. -/
theorem stepRunsTheDecodedInstruction : Obligations.StepRunsTheDecodedInstruction := by
  intro s i hs hi
  have hi' : InstrAtPc s.sampled i := hi
  exact step_of_fetch hs (State.fetch_of_instrAtPc hi')

/-- Settles O10: neither state takes an interrupt, and using up the level leaves the same state. -/
theorem requestIgnoredWhileDisabled : Obligations.RequestIgnoredWhileDisabled := by
  intro s later x y hie
  have not_taken (b : Bool) : State.interruptTaken { s with irqs := b :: later } = false :=
    State.interruptTaken_of_ie hie
  have sampled_eq : State.sampled { s with irqs := x :: later } = State.sampled { s with irqs := y :: later } := rfl
  rw [step, step, not_taken x, not_taken y, sampled_eq]

/-- Settles O16: the memory of the reset state lists nothing. -/
theorem resetMemoryIsCanonical : Obligations.ResetMemoryIsCanonical := State.wf_resetWith Config.default

end Sys2Proof.Machine

/-! # Accesses to memory, byte by byte, and where they are refused -/

namespace Sys2Proof.Machine

/-! ### The parts of an access that succeeds, and of one that is refused -/

theorem except_bind_eq_ok {ε α β : Type} {x : Except ε α} {k : α → Except ε β} {b : β} :
    x >>= k = .ok b ↔ ∃ a, x = .ok a ∧ k a = .ok b := by
  cases x <;> simp [bind, Except.bind]

theorem except_bind_of_error {ε α β : Type} {x : Except ε α} {e : ε} (h : x = .error e) (k : α → Except ε β) :
    x >>= k = .error e := by
  rw [h]; rfl

theorem except_bind_of_ok {ε α β : Type} {x : Except ε α} {a : α} (h : x = .ok a) (k : α → Except ε β) :
    x >>= k = k a := by
  rw [h]; rfl

/-- A 16-bit load is the load of its two bytes, the lower address first. -/
theorem State.load16_bytes {s t : State} {a v : Word} (h : s.load16 a = .ok (v, t)) :
    ∃ hi lo u, s.load8 a = .ok (hi, u) ∧ u.load8 (a + 1#16) = .ok (lo, t) ∧ v = Word.ofBytes hi lo := by
  obtain ⟨⟨hi, u⟩, high, rest⟩ := except_bind_eq_ok.mp h
  obtain ⟨⟨lo, t'⟩, low, result⟩ := except_bind_eq_ok.mp rest
  cases result
  exact ⟨hi, lo, u, high, low, rfl⟩

/-- Where something lies, the load of a byte succeeds and leaves the memory map as it is. -/
theorem State.load8_of_mapped {s : State} {a : Word} (h : Mapped s a) :
    ∃ v u, s.load8 a = .ok (v, u) ∧ u.cfg = s.cfg := by
  rcases s.load8_cases a with ⟨_, e⟩ | ⟨_, e⟩ | ⟨k, _⟩
  · exact ⟨_, _, e, rfl⟩
  · exact ⟨_, _, e, rfl⟩
  · exact absurd k h

/-- Where something lies, the store of a byte succeeds and leaves the memory map as it is. -/
theorem State.store8_of_mapped {s : State} {a : Word} (h : Mapped s a) (v : Byte) :
    ∃ u, s.store8 a v = .ok u ∧ u.cfg = s.cfg := by
  rcases s.store8_cases a v with ⟨_, e⟩ | ⟨_, e⟩ | ⟨_, e⟩ | ⟨k, _⟩
  · exact ⟨_, e, rfl⟩
  · exact ⟨_, e, rfl⟩
  · exact ⟨_, e, rfl⟩
  · exact absurd k h

/-- What lies at an address is decided by the parameters alone. -/
theorem State.kindAt_of_cfg {s t : State} (h : t.cfg = s.cfg) (a : Word) : t.kindAt a = s.kindAt a := by
  rw [State.kindAt, h, State.kindAt]

/-! ### Pointers -/

@[simp] theorem State.pair_pairUp (s : State) (b : Reg) (n : Word) : (s.pairUp b n).pair b = s.pair b + n :=
  s.pair_setPair_same b _

/-- Up after down gives back the whole state, whatever the pointer was (20_memory.md R46, R55). -/
theorem State.pairUp_pairDown (s : State) (b : Reg) (n : Word) : (s.pairDown b n).pairUp b n = s := by
  have down : (s.pairDown b n).pair b = s.pair b - n := s.pair_setPair_same b _
  rw [State.pairUp, down, BitVec.sub_add_cancel, State.pairDown, State.setPair_setPair, State.setPair_pair]

/-! ### Where an access is refused -/

/-- The access x, made in s, is refused if nothing lies at ea. -/
def RefusedIfNone {α : Type} (s : State) (ea : Word) (x : Except Refusal α) : Prop :=
  s.kindAt ea = .none → x = .error (.unmapped ea)

/-- The access x of two bytes, made in s, is refused if nothing lies at ea, or at ea + 1. -/
def RefusedIfNone16 {α : Type} (s : State) (ea : Word) (x : Except Refusal α) : Prop :=
  RefusedIfNone s ea x ∧ (Mapped s ea → RefusedIfNone s (ea + 1#16) x)

section

variable {s : State} {ea : Word}

theorem RefusedIfNone.load8 : RefusedIfNone s ea (s.load8 ea) := s.load8_none

theorem RefusedIfNone.store8 (v : Byte) : RefusedIfNone s ea (s.store8 ea v) := fun h => s.store8_none h v

/-- What follows a refused access is refused with it. -/
theorem RefusedIfNone.bind {α β : Type} {x : Except Refusal α} (h : RefusedIfNone s ea x) (k : α → Except Refusal β) :
    RefusedIfNone s ea (x >>= k) := fun hn => except_bind_of_error (h hn) k

theorem RefusedIfNone.storeReg (w : FlagWriter) (v : Byte) : RefusedIfNone s ea (s.storeReg w ea v) :=
  (RefusedIfNone.store8 v).bind _

theorem RefusedIfNone16.bind {α β : Type} {x : Except Refusal α} (h : RefusedIfNone16 s ea x)
    (k : α → Except Refusal β) : RefusedIfNone16 s ea (x >>= k) :=
  ⟨h.1.bind k, fun hm => (h.2 hm).bind k⟩

theorem RefusedIfNone16.load16 : RefusedIfNone16 s ea (s.load16 ea) := by
  refine ⟨RefusedIfNone.load8.bind _, fun hm hn => ?_⟩
  obtain ⟨v, u, hu, hcfg⟩ := State.load8_of_mapped hm
  refine (except_bind_of_ok hu _).trans (except_bind_of_error ?_ _)
  exact u.load8_none (by rw [State.kindAt_of_cfg hcfg, hn])

theorem RefusedIfNone16.storePair (w : FlagWriter) (v : Word) : RefusedIfNone16 s ea (s.storePair w ea v) := by
  have both : RefusedIfNone16 s ea (s.store16 ea v) := by
    refine ⟨(RefusedIfNone.store8 _).bind _, fun hm hn => ?_⟩
    obtain ⟨u, hu, hcfg⟩ := State.store8_of_mapped hm v.high
    refine (except_bind_of_ok hu _).trans ?_
    exact u.store8_none (by rw [State.kindAt_of_cfg hcfg, hn]) _
  exact both.bind _

/-! ### Instructions that are refused with their access -/

variable {i : Instr} {x : Except Refusal State}

theorem RefusedIfNone.refuses8 (hx : RefusedIfNone s ea x) (h : exec i s = finish x) : Refuses8 i s ea :=
  fun hn => h.trans (finish_eq_refused.mpr (hx hn))

theorem RefusedIfNone16.refuses16 (hx : RefusedIfNone16 s ea x) (h : exec i s = finish x) : Refuses16 i s ea :=
  ⟨hx.1.refuses8 h, fun hm => (hx.2 hm).refuses8 h⟩

/-- As `refuses8`, for an access through a pointer that has moved up first. -/
theorem RefusedIfNone.refuses8_up {b : Reg} {n : Word}
    (hx : RefusedIfNone (s.pairUp b n) ((s.pairUp b n).pair b) x) (h : exec i s = finish x) :
    Refuses8 i s (s.pair b + n) := by
  rw [State.pair_pairUp] at hx
  exact RefusedIfNone.refuses8 (s := s) hx h

theorem RefusedIfNone16.refuses16_up {b : Reg} {n : Word}
    (hx : RefusedIfNone16 (s.pairUp b n) ((s.pairUp b n).pair b) x) (h : exec i s = finish x) :
    Refuses16 i s (s.pair b + n) := by
  rw [State.pair_pairUp] at hx
  exact RefusedIfNone16.refuses16 (s := s) hx h

end

end Sys2Proof.Machine

/-! # What the data accesses of an instruction do to memory and to the record of device accesses -/

namespace Sys2Proof.Machine

/-- What happens to memory and to the record of device accesses between s and t, when at most n data bytes are accessed on the way and
none of them is stored unless `stores`. -/
structure DataFrame (stores : Bool) (n : Nat) (s t : State) : Prop where
  cfg : t.cfg = s.cfg
  canonical : CanonicalMemory s → CanonicalMemory t
  rom : ∀ a, s.kindAt a = .rom → t.byteAt a = s.byteAt a
  mem : stores = false → t.mem = s.mem
  devLog : ∃ l, t.devLog = l ++ s.devLog ∧ l.length ≤ n

namespace DataFrame

variable {stores : Bool} {m n : Nat} {s t u : State}

/-! ### Accesses, one after the other -/

theorem trans (h : DataFrame stores m s u) (h' : DataFrame stores n u t) : DataFrame stores (m + n) s t where
  cfg := h'.cfg.trans h.cfg
  canonical := h'.canonical ∘ h.canonical
  rom a ha := (h'.rom a ((State.kindAt_of_cfg h.cfg a).trans ha)).trans (h.rom a ha)
  mem hs := (h'.mem hs).trans (h.mem hs)
  devLog := by
    obtain ⟨l, e, hl⟩ := h.devLog
    obtain ⟨l', e', hl'⟩ := h'.devLog
    exact ⟨l' ++ l, by rw [e', e, List.append_assoc], by rw [List.length_append]; omega⟩

/-- Memory is as it was, and the record is longer by l. -/
theorem of_record (hcfg : t.cfg = s.cfg) (hmem : t.mem = s.mem) (l : List DeviceAccess) (hlog : t.devLog = l ++ s.devLog)
    (hl : l.length ≤ n) : DataFrame stores n s t where
  cfg := hcfg
  canonical hs := by rw [CanonicalMemory, hmem]; exact hs
  rom a _ := by rw [State.byteAt, hmem, State.byteAt]
  mem _ := hmem
  devLog := ⟨l, hlog, hl⟩

/-- No data is accessed. -/
theorem of_noAccess (hcfg : t.cfg = s.cfg) (hmem : t.mem = s.mem) (hlog : t.devLog = s.devLog) : DataFrame stores n s t :=
  of_record hcfg hmem [] hlog (Nat.zero_le n)

theorem of_load8 {a : Word} {v : Byte} (h : s.load8 a = .ok (v, t)) : DataFrame stores (n + 1) s t := by
  rcases s.load8_cases a with ⟨_, e⟩ | ⟨_, e⟩ | ⟨_, e⟩ <;> cases e.symm.trans h
  · exact of_noAccess rfl rfl rfl
  · exact of_record rfl rfl [.read a] rfl (by simp)

/-- A store changes the cell of ram at its address, which is no cell of rom. -/
theorem of_store8 {a : Word} {v : Byte} (h : s.store8 a v = .ok t) : DataFrame true (n + 1) s t := by
  rcases s.store8_cases a v with ⟨ram, e⟩ | ⟨_, e⟩ | ⟨_, e⟩ | ⟨_, e⟩ <;> cases e.symm.trans h
  · refine ⟨rfl, s.wf_setByte a v, fun b rom => ?_, nofun, [], rfl, Nat.zero_le _⟩
    have hne : b ≠ a := by
      rintro rfl
      cases ram.symm.trans rom
    rw [State.byteAt_setByte, if_neg hne]
  · exact of_noAccess rfl rfl rfl
  · exact of_record rfl rfl [.write a v] rfl (by simp)

theorem of_load16 {a v : Word} (h : s.load16 a = .ok (v, t)) : DataFrame stores 2 s t := by
  obtain ⟨_, _, u, high, low, _⟩ := State.load16_bytes h
  exact (of_load8 (n := 0) high).trans (of_load8 (n := 0) low)

theorem of_store16 {a v : Word} (h : s.store16 a v = .ok t) : DataFrame true 2 s t := by
  obtain ⟨u, high, low⟩ := s.store16_ok h
  exact (of_store8 (n := 0) high).trans (of_store8 (n := 0) low)

/-! ### The other parts of an instruction -/

/-- Registers and flags are written after the accesses. -/
theorem put (h : DataFrame stores n s u) (r : Vector Byte 16) (f : Flags) :
    DataFrame stores n s { u with regs := r, flags := f } :=
  ⟨h.cfg, h.canonical, h.rom, h.mem, h.devLog⟩

/-- A pointer moves before the accesses. -/
theorem of_pairUp {b : Reg} {k : Word} (h : DataFrame stores n (s.pairUp b k) t) : DataFrame stores n s t :=
  ⟨h.cfg, h.canonical, h.rom, h.mem, h.devLog⟩

theorem of_storeReg {w : FlagWriter} {ea : Word} {v : Byte} (h : s.storeReg w ea v = .ok t) : DataFrame true (n + 1) s t := by
  obtain ⟨u, hu, rfl⟩ := s.storeReg_ok h
  exact .put (.of_store8 hu) _ _

theorem of_storePair {w : FlagWriter} {ea v : Word} (h : s.storePair w ea v = .ok t) : DataFrame true 2 s t := by
  obtain ⟨u, hu, rfl⟩ := s.storePair_ok h
  exact .put (.of_store16 hu) _ _

theorem of_branch (op : Op4) (cond : Bool) (imm : Byte) : DataFrame stores n s (s.branch op cond imm) := by
  rcases s.branch_cases op cond imm with ⟨_, e⟩ | ⟨_, e⟩ <;> rw [e] <;> exact of_noAccess rfl rfl rfl

end DataFrame

/-! ### Every instruction, and the step -/

/-- An instruction that goes on accesses two data bytes at most, and stores only if it is a store (20_memory.md R47). -/
theorem exec_dataFrame {i : Instr} {s t : State} (h : exec i s = .next t) : DataFrame (isStore i) 2 s t := by
  cases i with
  | addi | adci | addpbi | subpbi | cmpi | andi | orri | cpyi
  | add | adc | addpb | addp | sub | sbc | subpb | subp | cmp | cmpp | umul | smul
  | and | orr | xor | andp | orrp | xorp | inv | invp | neg | negp | abs | absp
  | lsl | lsr | asr | rol | ror | rolc | rorc | lslp | lsrp | asrp | rolp | rorp | rolcp | rorcp
  | lslpi | lsrpi | asrpi | rolpi | rorpi
  | cpy | cpyp | cpypi | cpyfrf | cpytof | swp | call | calli
  | eni | dii | reti | swpira | cpypira =>
    cases h
    exact .of_noAccess rfl rfl rfl
  | bra | bnv | bne | beq | bcc | bcs | bls | bhi | bvc | bvs | bpl | bmi =>
    cases h
    exact .of_branch _ _ _
  | ldr | ldrx | ldrxi | ldrsa =>
    obtain ⟨⟨v, u⟩, hu, hk⟩ := finish_bind_eq_next.mp h
    cases hk
    exact .put (.of_load8 hu) _ _
  | ldrab | ldfab =>
    obtain ⟨⟨v, u⟩, hu, hk⟩ := finish_bind_eq_next.mp h
    cases hk
    exact .of_pairUp (.put (.of_load8 hu) _ _)
  | ldp | ldpx | ldpxi | ldpsa =>
    obtain ⟨⟨v, u⟩, hu, hk⟩ := finish_bind_eq_next.mp h
    cases hk
    exact .put (.of_load16 hu) _ _
  | ldpab =>
    obtain ⟨⟨v, u⟩, hu, hk⟩ := finish_bind_eq_next.mp h
    cases hk
    exact .of_pairUp (.put (.of_load16 hu) _ _)
  | str | strx | strxi => exact .of_storeReg (finish_eq_next.mp h)
  | strab => exact .of_pairUp (.of_storeReg (finish_eq_next.mp h))
  | strsa =>
    obtain ⟨u, hu, hk⟩ := finish_bind_eq_next.mp h
    cases hk
    exact .put (.of_storeReg hu) _ _
  | stfsa =>
    obtain ⟨u, hu, hk⟩ := finish_bind_eq_next.mp h
    split at hk <;> cases hk <;> exact .put (.of_storeReg hu) _ _
  | stp | stpx | stpxi => exact .of_storePair (finish_eq_next.mp h)
  | stpab => exact .of_pairUp (.of_storePair (finish_eq_next.mp h))
  | stpsa =>
    obtain ⟨u, hu, hk⟩ := finish_bind_eq_next.mp h
    cases hk
    exact .put (.of_storePair hu) _ _

/-- A step that goes on is an instruction, from a state with the parameters and the memory of s, or it has them itself: an interrupt entry
and the fetch leave them as they are. -/
theorem step_memory {s t : State} (h : step s = .next t) :
    ∃ u, (u = t ∨ ∃ i, exec i u = .next t) ∧ u.cfg = s.cfg ∧ u.mem = s.mem := by
  rcases step_eq_next.mp h with ⟨_, rfl⟩ | ⟨_, i, u, hfetch, hexec⟩
  · exact ⟨_, .inl rfl, rfl, rfl⟩
  · obtain ⟨l, rfl⟩ := s.sampled.fetch_ok hfetch
    exact ⟨_, .inr ⟨i, hexec⟩, rfl, rfl⟩

end Sys2Proof.Machine

/-! # A push and a pop through one pointer, and the fetch that is refused -/

namespace Sys2Proof.Machine

/-! ### What a register or a pair holds after a load -/

theorem State.reg_putRegNz_same (s : State) (w : FlagWriter) (a : Reg) (v : Byte) : (s.putRegNz w a v).reg a = v :=
  s.reg_setReg_same a v

theorem State.pair_putRegNz_ne (s : State) (w : FlagWriter) {a b : Reg} (hi : a ≠ pairHi b) (lo : a ≠ pairLo b) (v : Byte) :
    (s.putRegNz w a v).pair b = s.pair b :=
  (s.pair_setReg b a v).trans (by rw [if_neg hi.symm, if_neg lo.symm, State.pair])

theorem State.pair_putPairNz (s : State) (w : FlagWriter) (a b : Reg) (v : Word) :
    (s.putPairNz w a v).pair b = if pairHi b = pairHi a then v else s.pair b :=
  s.pair_setPair a b v

/-! ### The flags byte, bit by bit -/

theorem getLsbD_flagBit (p k : Fin 8) (f : Bool) : (flagBit p f).getLsbD k = (decide (k = p) && f) := by
  revert p k f; decide

theorem isFlagsByte_flagsByte (c : Config) (f : Flags) : IsFlagsByte c f (flagsByte c f) := by
  intro k
  simp only [flagsByte, BitVec.getLsbD_or, getLsbD_flagBit]

/-- 10_state.md R28: each flag of the flags byte is read back where no other flag has its bit. -/
theorem flagsOfByte_flagsByte {c : Config} (h : c.flagBitsDistinct = true) (f : Flags) :
    flagsOfByte c (flagsByte c f) = f := by
  simp only [Config.flagBitsDistinct, decide_eq_true_eq, List.nodup_cons, List.mem_cons, List.not_mem_nil, or_false, not_or] at h
  obtain ⟨⟨zc, zv, zn⟩, ⟨cv, cn⟩, vn, -⟩ := h
  have bit (k : Fin 8) := isFlagsByte_flagsByte c f k
  simp [flagsOfByte, -BitVec.getLsbD_eq_getElem, bit, zc, zv, zn, cv, cn, vn, Ne.symm zc, Ne.symm zv, Ne.symm zn,
    Ne.symm cv, Ne.symm cn, Ne.symm vn]

/-! ### The push: a store in ram, then the pointer moves down -/

section

variable {s : State} {a b : Reg}

/-- What stands in ram after the store of a byte, the flags being written by policy. -/
theorem State.storeReg_ram {ea : Word} (h : s.kindAt ea = .ram) (w : FlagWriter) (v : Byte) :
    s.storeReg w ea v = .ok ((s.setByte ea v).putFlags w (nzW v s.flags)) :=
  except_bind_of_ok (s.store8_ram h v) _

theorem State.storePair_ram {ea : Word} (h : s.kindAt ea = .ram) (h' : s.kindAt (ea + 1#16) = .ram) (w : FlagWriter) (v : Word) :
    s.storePair w ea v = .ok (((s.setByte ea v.high).setByte (ea + 1#16) v.low).putFlags w (nzW v s.flags)) := by
  have both : s.store16 ea v = .ok ((s.setByte ea v.high).setByte (ea + 1#16) v.low) :=
    (except_bind_of_ok (s.store8_ram h v.high) _).trans ((s.setByte ea v.high).store8_ram h' v.low)
  exact except_bind_of_ok both _

theorem exec_strsa_ram (h : s.kindAt (s.pair b) = .ram) :
    exec (.strsa a b) s =
      .next (((s.setByte (s.pair b) (s.reg a)).putFlags (.g2 .strsa) (nzW (s.reg a) s.flags)).pairDown b 1#16) :=
  finish_eq_next.mpr (except_bind_of_ok (State.storeReg_ram h _ _) _)

theorem exec_stpsa_ram (h : s.kindAt (s.pair b) = .ram) (h' : s.kindAt (s.pair b + 1#16) = .ram) :
    exec (.stpsa a b) s =
      .next ((((s.setByte (s.pair b) (s.pair a).high).setByte (s.pair b + 1#16) (s.pair a).low).putFlags (.g2 .stpsa)
        (nzW (s.pair a) s.flags)).pairDown b 2#16) :=
  finish_eq_next.mpr (except_bind_of_ok (State.storePair_ram h h' _ _) _)

theorem exec_stfsa_ram (h : s.kindAt (s.pair b) = .ram) (hdir : s.cfg.stfsaDirection = .subtract) :
    exec (.stfsa b) s =
      .next (((s.setByte (s.pair b) (flagsByte s.cfg s.flags)).putFlags (.g2 .stfsa)
        (nzW (flagsByte s.cfg s.flags) s.flags)).pairDown b 1#16) :=
  finish_eq_next.mpr ((except_bind_of_ok (State.storeReg_ram h _ _) _).trans (by
    simp only [State.putFlags_cfg, State.setByte_cfg, hdir]))

/-! ### The pop: the pointer moves back up, then the cell there is loaded -/

theorem exec_ldrab_pairDown (h : PlainCell s (s.pair b)) :
    exec (.ldrab a b) (s.pairDown b 1#16) = .next (s.putRegNz (.g2 .ldrab) a (s.byteAt (s.pair b))) := by
  rw [exec, execLdrab, State.pairUp_pairDown]
  exact finish_eq_next.mpr (except_bind_of_ok (s.load8_plain h) _)

theorem exec_ldpab_pairDown (h : PlainCell s (s.pair b)) (h' : PlainCell s (s.pair b + 1#16)) :
    exec (.ldpab a b) (s.pairDown b 2#16) =
      .next (s.putPairNz (.g2 .ldpab) a (Word.ofBytes (s.byteAt (s.pair b)) (s.byteAt (s.pair b + 1#16)))) := by
  rw [exec, execLdpab, State.pairUp_pairDown]
  exact finish_eq_next.mpr (except_bind_of_ok (s.load16_plain h h') _)

theorem exec_ldfab_pairDown (h : PlainCell s (s.pair b)) :
    exec (.ldfab b) (s.pairDown b 1#16) = .next (s.setFlags (flagsOfByte s.cfg (s.byteAt (s.pair b)))) := by
  rw [exec, execLdfab, State.pairUp_pairDown]
  exact finish_eq_next.mpr (except_bind_of_ok (s.load8_plain h) _)

end

/-! ### The fetch that is refused -/

theorem PlainCell.mapped {s : State} {a : Word} (h : PlainCell s a) : Mapped s a := by
  rcases h with h | h <;> simp [Mapped, h]

/-- 20_memory.md R42: a refused load of the first halfword refuses the step. -/
theorem step_refused_of_firstHalfword {s : State} {e : Refusal} (hs : s.interruptTaken = false)
    (h : s.sampled.load16 s.pc = .error e) : step s = .refused e := by
  have hfetch : s.sampled.fetch = .error e := except_bind_of_error h _
  simp [step, hs, hfetch]

/-- 20_memory.md R42: so does a refused load of the immediate, once the first halfword is read and is that of a long instruction. -/
theorem step_refused_of_immediate {s : State} {hd : Head} {e : Refusal} (hs : s.interruptTaken = false)
    (h0 : PlainCell s s.pc) (h1 : PlainCell s (s.pc + 1#16))
    (hhd : decodeHead s.cfg.opcodeMap (Word.ofBytes (s.byteAt s.pc) (s.byteAt (s.pc + 1#16))) = .ok hd) (hlen : hd.length = 4)
    (h : s.sampled.load16 (s.pc + 2#16) = .error e) : step s = .refused e := by
  have hlong : hd.isLong = true := by
    by_contra hl
    simp [Head.length, hl] at hlen
  have first : s.sampled.load16 s.pc = .ok (Word.ofBytes (s.byteAt s.pc) (s.byteAt (s.pc + 1#16)), s.sampled) :=
    s.sampled.load16_plain h0 h1
  have hfetch : s.sampled.fetch = .error e := by
    simp [State.fetch, first, bind, Except.bind, hhd, hlong, h]
  simp [step, hs, hfetch]

end Sys2Proof.Machine

/-! # The obligations on memory -/

namespace Sys2Proof.Machine

/-- Settles O15: each write of a byte puts its cell at its place in the list, and only the instruction of a step writes. -/
theorem stepKeepsMemoryCanonical : Obligations.StepKeepsMemoryCanonical := by
  intro s t hs h
  obtain ⟨u, next, _, hmem⟩ := step_memory h
  have hu : CanonicalMemory u := by rw [CanonicalMemory, hmem]; exact hs
  rcases next with rfl | ⟨i, hexec⟩
  · exact hu
  · exact (exec_dataFrame hexec).canonical hu

/-- Settles O18: the cells that an instruction writes are cells of ram. -/
theorem romKeepsItsContent : Obligations.RomKeepsItsContent := by
  intro s t a hrom h
  obtain ⟨u, next, hcfg, hmem⟩ := step_memory h
  have hu : u.byteAt a = s.byteAt a := by rw [State.byteAt, hmem, State.byteAt]
  rcases next with rfl | ⟨i, hexec⟩
  · exact hu
  · exact ((exec_dataFrame hexec).rom a ((State.kindAt_of_cfg hcfg a).trans hrom)).trans hu

/-- Settles O22, by the data accesses of all instructions. -/
theorem onlyStoresChangeMemory : Obligations.OnlyStoresChangeMemory := by
  intro i s t hi hexec a
  rw [State.byteAt, (exec_dataFrame hexec).mem hi, State.byteAt]

/-- Settles O24, by the data accesses of all instructions. -/
theorem atMostTwoDataAccesses : Obligations.AtMostTwoDataAccesses :=
  fun _ _ _ hexec => (exec_dataFrame hexec).devLog

/-- Settles O53: each form is refused with its access, which the "add before" forms make once the pointer has moved. -/
theorem unmappedDataAccessIsRefused : Obligations.UnmappedDataAccessIsRefused := by
  intro s a b c imm
  refine ⟨⟨?ldr, ?str, ?ldrab, ?strab, ?ldrsa, ?strsa, ?ldfab, ?stfsa⟩, ⟨?ldrx, ?strx, ?ldrxi, ?strxi⟩,
    ⟨?ldp, ?stp, ?ldpab, ?stpab, ?ldpsa, ?stpsa⟩, ?ldpx, ?stpx, ?ldpxi, ?stpxi⟩
  case ldr | ldrsa | ldrx | ldrxi => exact (RefusedIfNone.load8.bind _).refuses8 rfl
  case ldrab | ldfab => exact (RefusedIfNone.load8.bind _).refuses8_up rfl
  case str | strx | strxi => exact (RefusedIfNone.storeReg _ _).refuses8 rfl
  case strab => exact (RefusedIfNone.storeReg _ _).refuses8_up rfl
  case strsa | stfsa => exact ((RefusedIfNone.storeReg _ _).bind _).refuses8 rfl
  case ldp | ldpsa | ldpx | ldpxi => exact (RefusedIfNone16.load16.bind _).refuses16 rfl
  case ldpab => exact (RefusedIfNone16.load16.bind _).refuses16_up rfl
  case stp | stpx | stpxi => exact (RefusedIfNone16.storePair _ _).refuses16 rfl
  case stpab => exact (RefusedIfNone16.storePair _ _).refuses16_up rfl
  case stpsa => exact ((RefusedIfNone16.storePair _ _).bind _).refuses16 rfl

/-- Settles O54: the pop finds the pointer of the push, so it reads the cell that the push wrote. -/
theorem pushThenPopRestores : Obligations.PushThenPopRestores := by
  intro s a b c
  refine ⟨fun ram hi lo => ?_, fun ram ram' hne => ?_, fun ram hdir hdistinct => ?_⟩
  · refine ⟨_, _, exec_strsa_ram ram, exec_ldrab_pairDown (.inl ram), ?_, State.pair_putRegNz_ne _ _ hi lo _⟩
    rw [State.reg_putRegNz_same]
    simp [State.byteAt_setByte]
  · refine ⟨_, _, exec_stpsa_ram ram ram', exec_ldpab_pairDown (.inl ram) (.inl ram'), ?_, ?_⟩
    · simp [State.pair_putPairNz, State.byteAt_setByte, (Word.add_one_ne _).symm]
    · rw [State.pair_putPairNz, if_neg (Ne.symm hne)]
      rfl
  · refine ⟨_, _, exec_stfsa_ram ram hdir, exec_ldfab_pairDown (.inl ram), ?_, rfl⟩
    simp [State.byteAt_setByte, flagsOfByte_flagsByte hdistinct]

/-- Settles O11: the fetch reads the first halfword and then, of a long instruction, the immediate, each as a 16-bit load. -/
theorem unmappedFetchRefusesTheStep : Obligations.UnmappedFetchRefusesTheStep := by
  intro s hs
  have halfword (ea : Word) : RefusedIfNone16 s.sampled ea (s.sampled.load16 ea) := RefusedIfNone16.load16
  refine ⟨fun hn => ?_, fun h0 hn => ?_, fun hd h0 h1 hhd hlen => ⟨fun hn => ?_, fun h2 hn => ?_⟩⟩
  · exact step_refused_of_firstHalfword hs ((halfword _).1 hn)
  · exact step_refused_of_firstHalfword hs ((halfword _).2 (PlainCell.mapped h0) hn)
  · exact step_refused_of_immediate hs h0 h1 hhd hlen ((halfword _).1 hn)
  · rw [← Word.add_two_add_one] at hn ⊢
    exact step_refused_of_immediate hs h0 h1 hhd hlen ((halfword _).2 (PlainCell.mapped h2) hn)

end Sys2Proof.Machine

/-! # The decoder: what it answers, and what it reads back from the encoder -/

namespace Sys2Proof

/-! ### The first halfword -/

theorem Word.bits_lt (w : Word) (lo len : Nat) : w.bits lo len < 2 ^ len := Nat.mod_lt _ (Nat.two_pow_pos len)

/-- The spec's `w[lo+len-1 : lo]` as a bit vector is the model's field. -/
theorem Word.extractLsb'_eq_iff (w : Word) (lo len : Nat) (v : BitVec len) :
    w.extractLsb' lo len = v ↔ w.bits lo len = v.toNat := by
  rw [← BitVec.toNat_inj, BitVec.extractLsb'_toNat, Nat.shiftRight_eq_div_pow, Word.bits]

theorem except_map_eq_ok {ε α β : Type} {x : Except ε α} {f : α → β} {b : β} :
    x.map f = .ok b ↔ ∃ a, x = .ok a ∧ f a = b := by
  cases x <;> simp [Except.map]

/-- Everything the decoder can answer for a first halfword: one alternative for each group of R62, with the fields of R63 to R68. -/
theorem decodeHead_cases {m : OpcodeMap} {w : Word} {h : Head} (hd : decodeHead m w = .ok h) :
    (w.bits 15 1 = 0 ∧ ∃ op, h = .g1 op (w.regField 8) w.imm8Field) ∨
    (w.bits 14 2 = 0b10 ∧ ∃ op, h = .g2 op (w.regField 4) (w.regField 0)) ∨
    (w.bits 12 4 = 0b1100 ∧ ∃ op, h = .g3 op (w.regField 6) (w.pairField 3) (w.pairField 0)) ∨
    (w.bits 12 4 = 0b1101 ∧ ∃ op, h = .g4 op w.imm8Field) ∨
    (w.bits 10 6 = 0b111000 ∧ ∃ op, h = .g5 op (w.regField 3) (w.pairField 0)) ∨
    (w.bits 10 6 = 0b111001 ∧ ∃ op, h = .g6 op (w.pairField 4) w.imm4Field) := by
  unfold decodeHead at hd
  split_ifs at hd with g1 g2 g3 g4 g5 g6
  all_goals obtain ⟨op, -, rfl⟩ := except_map_eq_ok.mp hd
  · exact .inl ⟨g1, op, rfl⟩
  · exact .inr (.inl ⟨g2, op, rfl⟩)
  · exact .inr (.inr (.inl ⟨g3, op, rfl⟩))
  · exact .inr (.inr (.inr (.inl ⟨g4, op, rfl⟩)))
  · exact .inr (.inr (.inr (.inr (.inl ⟨g5, op, rfl⟩))))
  · exact .inr (.inr (.inr (.inr (.inr ⟨g6, op, rfl⟩))))

/-- R79: only Group 5 has the leading bits 0b111000, and only Group 5 is long. -/
theorem decodeHead_isLong_iff {m : OpcodeMap} {w : Word} {h : Head} (hd : decodeHead m w = .ok h) :
    h.isLong = true ↔ w.bits 10 6 = 0b111000 := by
  rcases decodeHead_cases hd with
    ⟨hw, op, rfl⟩ | ⟨hw, op, rfl⟩ | ⟨hw, op, rfl⟩ | ⟨hw, op, rfl⟩ | ⟨hw, op, rfl⟩ | ⟨hw, op, rfl⟩
  case inr.inr.inr.inr.inl => simp [Head.isLong, hw]
  all_goals
    simp only [Head.isLong, Bool.false_eq_true, false_iff]
    simp only [Word.bits] at hw ⊢
    omega

/-! ### The halfwords that select nothing -/

/-- R76: the decoder rejects an op number at which the table of its group has no mnemonic. -/
theorem OpcodeMap.lookup_map_eq_error_iff {α : Type} {group : Nat} {t : List (Option α)} {op : Nat} {f : α → Head} :
    (∃ e, (OpcodeMap.lookup group t op).map f = .error e) ↔ t[op]?.join = none := by
  rw [OpcodeMap.lookup]
  rcases t[op]? with _ | _ | x <;> simp [Except.map]

/-- The op numbers that the default opcode map leaves over, group by group (R72 to R76). -/
theorem OpcodeMap.listOrder_unallocated :
    (∀ op < 2 ^ 3, listOrder.g1[op]?.join ≠ none) ∧
    (∀ op < 2 ^ 6, listOrder.g2[op]?.join = none ↔ op = 63) ∧
    (∀ op < 2 ^ 2, listOrder.g3[op]?.join ≠ none) ∧
    (∀ op < 2 ^ 4, listOrder.g4[op]?.join = none ↔ 12 ≤ op) ∧
    (∀ op < 2 ^ 3, listOrder.g5[op]?.join = none ↔ 6 ≤ op) ∧
    (∀ op < 2 ^ 3, listOrder.g6[op]?.join = none ↔ 5 ≤ op) := by
  refine ⟨?_, ?_, ?_, ?_, ?_, ?_⟩ <;> decide

/-! ### Pairs are named by their even register -/

@[simp] theorem Reg.even_pairName (r : Reg) : r.pairName.even = true := by
  simp [Reg.even, Reg.pairName]

@[simp] theorem Word.even_pairField (w : Word) (lo : Nat) : (w.pairField lo).even = true := by
  simp [Reg.even, Word.pairField]

section

open Instr (wellFormed pairOperands)

theorem Op1.wellFormed_instr (op : Op1) (a : Reg) (imm : Byte) : (op.instr a imm).wellFormed = true := by
  cases op <;> simp [Op1.instr, wellFormed, pairOperands]

theorem Op2.wellFormed_instr (op : Op2) (a b : Reg) : (op.instr a b).wellFormed = true := by
  cases op <;> simp [Op2.instr, wellFormed, pairOperands]

theorem Op3.wellFormed_instr (op : Op3) (a : Reg) {b c : Reg} (hb : b.even = true) (hc : c.even = true) :
    (op.instr a b c).wellFormed = true := by
  cases op <;> simp [Op3.instr, wellFormed, pairOperands, hb, hc]

theorem Op4.wellFormed_instr (op : Op4) (imm : Byte) : (op.instr imm).wellFormed = true := by
  cases op <;> simp [Op4.instr, wellFormed, pairOperands]

theorem Op5.wellFormed_instr (op : Op5) (a : Reg) {b : Reg} (hb : b.even = true) (imm : Word) :
    (op.instr a b imm).wellFormed = true := by
  cases op <;> simp [Op5.instr, wellFormed, pairOperands, hb]

theorem Op6.wellFormed_instr (op : Op6) {a : Reg} (ha : a.even = true) (imm : BitVec 4) :
    (op.instr a imm).wellFormed = true := by
  cases op <;> simp [Op6.instr, wellFormed, pairOperands, ha]

end

/-- A 4-bit pair field drops its low bit when the instruction is formed; a 3-bit one cannot hold an odd number. -/
theorem decodeHead_wellFormed {m : OpcodeMap} {w : Word} {h : Head} (hd : decodeHead m w = .ok h) (imm : Word) :
    (h.instr imm).wellFormed = true := by
  rcases decodeHead_cases hd with
    ⟨-, op, rfl⟩ | ⟨-, op, rfl⟩ | ⟨-, op, rfl⟩ | ⟨-, op, rfl⟩ | ⟨-, op, rfl⟩ | ⟨-, op, rfl⟩
  · exact op.wellFormed_instr _ _
  · exact op.wellFormed_instr _ _
  · exact op.wellFormed_instr _ (w.even_pairField 3) (w.even_pairField 0)
  · exact op.wellFormed_instr _
  · exact op.wellFormed_instr _ (w.even_pairField 0) imm
  · exact op.wellFormed_instr (w.even_pairField 4) _

/-! ### The decoder on a list of bytes -/

section

variable {m : OpcodeMap} {b0 b1 : Byte} {h : Head} (hd : decodeHead m (Word.ofBytes b0 b1) = .ok h)
include hd

theorem decode_short (hl : h.isLong = false) (rest : List Byte) : decode m (b0 :: b1 :: rest) = .ok (h.instr 0, rest) := by
  simp [decode, hd, hl]

theorem decode_long (hl : h.isLong = true) (b2 b3 : Byte) (rest : List Byte) :
    decode m (b0 :: b1 :: b2 :: b3 :: rest) = .ok (h.instr (Word.ofBytes b2 b3), rest) := by
  simp [decode, hd, hl]

end

/-- What decodes is what some first halfword says, with some second halfword. -/
theorem decode_ok {m : OpcodeMap} {bs rest : List Byte} {i : Instr} (hdec : decode m bs = .ok (i, rest)) :
    ∃ w h imm, decodeHead m w = .ok h ∧ i = h.instr imm := by
  rcases bs with _ | ⟨b0, _ | ⟨b1, bs⟩⟩
  case nil => simp [decode] at hdec
  case cons.nil => simp [decode] at hdec
  case cons.cons =>
    cases hd : decodeHead m (Word.ofBytes b0 b1) with
    | error e => simp [decode, hd] at hdec
    | ok h =>
      cases hl : h.isLong with
      | false =>
        rw [decode_short hd hl] at hdec
        cases hdec
        exact ⟨_, h, _, hd, rfl⟩
      | true =>
        rcases bs with _ | ⟨b2, _ | ⟨b3, bs⟩⟩
        case nil => simp [decode, hd, hl] at hdec
        case cons.nil => simp [decode, hd, hl] at hdec
        case cons.cons =>
          rw [decode_long hd hl] at hdec
          cases hdec
          exact ⟨_, h, _, hd, rfl⟩

/-! ### The encoder -/

/-- The bytes of an instruction of one halfword. -/
theorem encode_of_imm16_none {m : OpcodeMap} {i : Instr} (himm : i.imm16 = none) :
    encode m i = [(encodeHead m i.head).high, (encodeHead m i.head).low] := by
  simp [encode, encodeWords, himm]

/-- The bytes of an instruction of two halfwords. -/
theorem encode_of_imm16_some {m : OpcodeMap} {i : Instr} {imm : Word} (himm : i.imm16 = some imm) :
    encode m i = [(encodeHead m i.head).high, (encodeHead m i.head).low, imm.high, imm.low] := by
  simp [encode, encodeWords, himm]

@[simp] theorem Head.isLong_evened (h : Head) : h.evened.isLong = h.isLong := by cases h <;> rfl

/-- The instruction that the word of a head reads as (R70, R77). -/
theorem decodeHead_encodeHead_instr {m : OpcodeMap} (hm : m.wf = true) (h : Head) (imm : Word) :
    (decodeHead m (encodeHead m h)).map (·.instr imm) = .ok (h.evened.instr imm) := by
  rw [decodeHead_encodeHead hm]
  rfl

namespace Laws.HeadInstr

/-- The family of all 98 instructions. -/
theorem all (i : Instr) : Statement i :=
  i.casesOn (motive := Statement)
    addi adci addpbi subpbi cmpi andi orri cpyi add adc addpb addp sub sbc subpb subp cmp cmpp umul smul and
    orr xor andp orrp xorp inv invp neg negp abs absp lsl lsr asr rol ror rolc rorc lslp lsrp asrp rolp rorp
    rolcp rorcp cpy cpyp cpyfrf cpytof swp call ldr str ldrab strab ldrsa strsa ldfab stfsa ldp stp ldpab
    stpab ldpsa stpsa eni dii reti swpira cpypira ldrx strx ldpx stpx bra bnv bne beq bcc bcs bls bhi bvc bvs
    bpl bmi cpypi calli ldrxi strxi ldpxi stpxi lslpi lsrpi asrpi rolpi rorpi


end Laws.HeadInstr

end Sys2Proof

/-! # The obligations on the encoding -/

namespace Sys2Proof

/-- Settles O1: the head is read back with its pairs named by even registers, and a well-formed instruction is what that head and its
second halfword say. -/
theorem decodeOfEncodeIsTheInstruction : Obligations.DecodeOfEncodeIsTheInstruction := by
  intro m i rest hm hi
  obtain ⟨hinstr, hlong⟩ := Laws.HeadInstr.all i hi
  have hd : decodeHead m (Word.ofBytes (encodeHead m i.head).high (encodeHead m i.head).low) = .ok i.head.evened := by
    rw [Word.ofBytes_high_low, decodeHead_encodeHead hm]
  rw [← Head.isLong_evened] at hlong
  cases himm : i.imm16 with
  | none =>
    rw [himm, Option.getD_none] at hinstr
    rw [himm] at hlong
    calc decode m (encode m i ++ rest)
        = .ok (i.head.evened.instr 0, rest) := by rw [encode_of_imm16_none himm]; exact decode_short hd hlong.symm rest
      _ = .ok (i, rest) := by rw [hinstr]
  | some imm =>
    rw [himm, Option.getD_some] at hinstr
    rw [himm] at hlong
    calc decode m (encode m i ++ rest)
        = .ok (i.head.evened.instr (Word.ofBytes imm.high imm.low), rest) := by
          rw [encode_of_imm16_some himm]; exact decode_long hd hlong.symm _ _ rest
      _ = .ok (i, rest) := by rw [Word.ofBytes_high_low, hinstr]

/-- Settles O2, group by group: a range of R76 is an op number left over in its group, or a word of no group. -/
theorem unallocatedHalfwordsAreTheListed : Obligations.UnallocatedHalfwordsAreTheListed := by
  intro w
  have hw := w.isLt
  obtain ⟨u1, u2, u3, u4, u5, u6⟩ := OpcodeMap.listOrder_unallocated
  rw [decodeHead]
  split_ifs with g1 g2 g3 g4 g5 g6
  · rw [OpcodeMap.lookup_map_eq_error_iff, iff_false_left (u1 _ (w.bits_lt 12 3))]
    simp only [Word.bits] at g1
    omega
  · rw [OpcodeMap.lookup_map_eq_error_iff, u2 _ (w.bits_lt 8 6)]
    simp only [Word.bits] at g2 ⊢
    omega
  · rw [OpcodeMap.lookup_map_eq_error_iff, iff_false_left (u3 _ (w.bits_lt 10 2))]
    simp only [Word.bits] at g3
    omega
  · rw [OpcodeMap.lookup_map_eq_error_iff, u4 _ (w.bits_lt 8 4)]
    simp only [Word.bits] at g4 ⊢
    omega
  · rw [OpcodeMap.lookup_map_eq_error_iff, u5 _ (w.bits_lt 7 3)]
    simp only [Word.bits] at g5 ⊢
    omega
  · rw [OpcodeMap.lookup_map_eq_error_iff, u6 _ (w.bits_lt 7 3)]
    simp only [Word.bits] at g6 ⊢
    omega
  · refine iff_of_true ⟨_, rfl⟩ ?_
    simp only [Word.bits] at g1 g2 g3 g4 g5 g6
    omega

/-- Settles O4: bits 15:10 are 0b111000 exactly in the words of Group 5, the long one. -/
theorem lengthFollowsTheLeadingBits : Obligations.LengthFollowsTheLeadingBits := by
  intro m w h hd
  have leading : h.isLong = true ↔ w.extractLsb' 10 6 = 0b111000#6 := by
    rw [Word.extractLsb'_eq_iff]
    exact decodeHead_isLong_iff hd
  exact ⟨fun hw => if_pos (leading.mpr hw), fun hw => if_neg (mt leading.mp hw)⟩

/-- Settles O5: in every row the fields are read back as written, but for the low bit of a 3-bit pair field, and forming the instruction
drops what the row ignores. -/
theorem ignoredFieldsReadAlike : Obligations.IgnoredFieldsReadAlike := by
  intro m a b c n imm hm reads
  have row (h : Head) : reads h (h.evened.instr imm) := decodeHead_encodeHead_instr hm h imm
  and_intros <;> exact row _

/-- Settles O6: whatever the bytes, what decodes is formed from a head that the decoder answered. -/
theorem decodedInstructionsAreWellFormed : Obligations.DecodedInstructionsAreWellFormed := by
  intro m bs i rest hdec
  obtain ⟨w, h, imm, hd, rfl⟩ := decode_ok hdec
  exact decodeHead_wellFormed hd imm

/-- Settles O7: each word is evaluated. -/
theorem sampleWordsDecode : Obligations.SampleWordsDecode := by
  refine ⟨?addi, ?addpb, ?stpsa, ?ldpx, ?beq, ?ldrxi, ?asrpi⟩ <;> decide

namespace Machine

/-- R76: the fetch judges the first halfword before it reads anything else. -/
theorem State.fetch_unallocated {s : State} {e : DecodeReject} (h0 : PlainCell s s.pc) (h1 : PlainCell s (s.pc + 1#16))
    (he : decodeHead s.cfg.opcodeMap (Word.ofBytes (s.byteAt s.pc) (s.byteAt (s.pc + 1#16))) = .error e) :
    s.fetch = .error (.unallocated (Word.ofBytes (s.byteAt s.pc) (s.byteAt (s.pc + 1#16)))) := by
  simp [State.fetch, s.load16_plain h0 h1, bind, Except.bind, he]

/-- Settles O3: using up a level of irq changes neither the pc nor the halfword there. -/
theorem unallocatedHalfwordRefusesTheStep : Obligations.UnallocatedHalfwordRefusesTheStep := by
  intro s e hs h0 h1 he
  have hfetch : s.sampled.fetch = .error (.unallocated (Word.ofBytes (s.byteAt s.pc) (s.byteAt (s.pc + 1#16)))) :=
    State.fetch_unallocated h0 h1 he
  simp [step, hs, hfetch]

end Machine

end Sys2Proof

/-! # The adder over exact integers -/

namespace Sys2Proof.Machine

/-- The two ranges of a two's complement value. -/
theorem toInt_cases {w : Nat} (v : BitVec w) :
    2 * v.toNat < 2 ^ w ∧ v.toInt = v.toNat ∨ 2 ^ w ≤ 2 * v.toNat ∧ v.toInt = v.toNat - 2 ^ w := by
  rw [BitVec.toInt_eq_toNat_cond]
  push_cast
  split <;> omega

section

variable {w : Nat} (a b : BitVec w) (cin : Bool)

/-! ### The sum (00_scope.md R11) -/

theorem toNat_addW : (addW a b cin).1.toNat = (a.toNat + b.toNat + cin.toNat) % 2 ^ w := by
  simp [addW]

/-- A sum of two w-bit values and a carry wraps at most once. -/
theorem addW_wraps_once :
    a.toNat + b.toNat + cin.toNat < 2 ^ w ∧ (addW a b cin).1.toNat = a.toNat + b.toNat + cin.toNat ∨
    2 ^ w ≤ a.toNat + b.toNat + cin.toNat ∧ (addW a b cin).1.toNat + 2 ^ w = a.toNat + b.toNat + cin.toNat := by
  have ha := a.isLt
  have hb := b.isLt
  have hcin := cin.toNat_lt
  rw [toNat_addW]
  rcases Nat.lt_or_ge (a.toNat + b.toNat + cin.toNat) (2 ^ w) with hlt | hge
  · exact .inl ⟨hlt, Nat.mod_eq_of_lt hlt⟩
  · rw [Nat.mod_eq_sub_mod hge, Nat.mod_eq_of_lt (by omega)]
    exact .inr ⟨hge, Nat.sub_add_cancel hge⟩

/-- C is bit w of the sum: the unsigned carry out. -/
theorem addW_carry : (addW a b cin).2.c = decide (2 ^ w ≤ a.toNat + b.toNat + cin.toNat) := by
  have ha := a.isLt
  have hb := b.isLt
  have hcin := cin.toNat_lt
  change Nat.testBit _ w = _
  rcases Nat.lt_or_ge (a.toNat + b.toNat + cin.toNat) (2 ^ w) with hlt | hge
  · rw [Nat.testBit_lt_two_pow hlt, decide_eq_false (by omega)]
  · rw [Nat.testBit_of_two_pow_le_and_two_pow_add_one_gt hge (by omega), decide_eq_true hge]

/-- V compares signs: two operands of one sign and a sum of the other one. That is the case exactly if the signed sum does not fit. -/
theorem addW_overflow (hw : 0 < w) : (addW a b cin).2.v = signedOverflow w (a.toInt + b.toInt + cin.toNat) := by
  have signs : (addW a b cin).2.v = (a.msb == b.msb && a.msb != (addW a b cin).1.msb) := by
    simp [addW, bne, hw]
  have half : 2 * (2 : Int) ^ (w - 1) = 2 ^ w := mul_pow_sub_one hw.ne' 2
  have hcin := cin.toNat_lt
  have ha := toInt_cases a
  have hb := toInt_cases b
  have hr := toInt_cases (addW a b cin).1
  have hsum := addW_wraps_once a b cin
  have hpow : ((2 ^ w : Nat) : Int) = 2 ^ w := Nat.cast_pow 2 w
  rw [signs, Bool.eq_iff_iff]
  simp only [signedOverflow, BitVec.msb_eq_toInt, bne,
    Bool.and_eq_true, Bool.not_eq_true', beq_iff_eq, beq_eq_false_iff_ne, ne_eq, decide_eq_decide, decide_eq_true_eq]
  omega

/-- The adder's flags are those of the exact sum. -/
theorem addW_flags (hw : 0 < w) : (addW a b cin).2 = sumFlags a b cin (addW a b cin).1 := by
  have hn : (addW a b cin).2.n = decide ((addW a b cin).1.toInt < 0) := BitVec.msb_eq_toInt
  have hz : (addW a b cin).2.z = decide ((addW a b cin).1.toNat = 0) := by
    rw [Bool.eq_iff_iff]
    simp [addW, BitVec.toNat_eq]
  rw [sumFlags, ← hn, ← addW_overflow a b cin hw, ← hz, ← addW_carry]

end

/-! ### The difference: the sum with the complement (R11, D14) -/

section

variable {w : Nat} (x y : BitVec w) (borrow : Bool)

/-- The exact sum with the complement is the exact difference, one turn of 2^w further. -/
theorem add_not_toNat_eq_sub : ((x.toNat + (~~~y).toNat + (!borrow).toNat : Nat) : Int) =
    (x.toNat : Int) - y.toNat - borrow.toNat + 2 ^ w := by
  have hy := y.isLt
  have hborrow : (!borrow).toNat + borrow.toNat = 1 := by cases borrow <;> rfl
  have hpow : ((2 ^ w : Nat) : Int) = 2 ^ w := Nat.cast_pow 2 w
  rw [BitVec.toNat_not]
  omega

theorem toNat_addW_not :
    ((addW x (~~~y) (!borrow)).1.toNat : Int) = ((x.toNat : Int) - y.toNat - borrow.toNat) % 2 ^ w := by
  rw [toNat_addW, Int.natCast_mod, add_not_toNat_eq_sub]
  push_cast
  exact Int.add_emod_right _ _

theorem toInt_not_eq (hw : 0 < w) : (~~~y).toInt = -y.toInt - 1 := by
  have half : 2 * 2 ^ (w - 1) = 2 ^ w := mul_pow_sub_one hw.ne' 2
  have hpow : ((2 ^ w : Nat) : Int) = 2 ^ w := Nat.cast_pow 2 w
  have hy := toInt_cases y
  have hnot := toInt_cases (~~~y)
  have hlt := y.isLt
  rw [BitVec.toNat_not] at hnot
  omega

/-- C is set exactly if there is no borrow. -/
theorem two_pow_le_add_not_iff :
    2 ^ w ≤ x.toNat + (~~~y).toNat + (!borrow).toNat ↔ y.toNat + borrow.toNat ≤ x.toNat := by
  have hsum := add_not_toNat_eq_sub x y borrow
  have hpow : ((2 ^ w : Nat) : Int) = 2 ^ w := Nat.cast_pow 2 w
  omega

theorem sumFlags_not (hw : 0 < w) (r : BitVec w) : sumFlags x (~~~y) (!borrow) r = diffFlags x y borrow r := by
  have hborrow : ((!borrow).toNat : Int) = 1 - borrow.toNat := by cases borrow <;> rfl
  have signed : x.toInt + (~~~y).toInt + (!borrow).toNat = x.toInt - y.toInt - borrow.toNat := by
    rw [toInt_not_eq y hw, hborrow]
    omega
  simp only [sumFlags, diffFlags, signed, two_pow_le_add_not_iff]

/-- The flags of the adder on the complement are those of the exact difference. -/
theorem addW_not_flags (hw : 0 < w) :
    (addW x (~~~y) (!borrow)).2 = diffFlags x y borrow (addW x (~~~y) (!borrow)).1 := by
  rw [addW_flags x _ _ hw, sumFlags_not x y borrow hw]

theorem addW_not_carry : (addW x (~~~y) (!borrow)).2.c = decide (y.toNat + borrow.toNat ≤ x.toNat) := by
  rw [addW_carry, decide_eq_decide]
  exact two_pow_le_add_not_iff x y borrow

/-- Without a borrow the result is the difference of bit vectors. -/
theorem subW_result : (subW x y).1 = x - y := by
  apply BitVec.eq_of_toNat_eq
  have hy := y.isLt
  rw [subW, toNat_addW, BitVec.toNat_not, BitVec.toNat_sub, Bool.toNat_true]
  congr 1
  omega

end

end Sys2Proof.Machine

/-! # Results in a register or a pair, and flags: the frame, and one lemma for each way of writing them -/

namespace Sys2Proof.Machine

variable {i : Instr} {s : State} {a : Reg}

/-! ### Frames -/

theorem OnlyRegsAndFlags.of_setFlags (f : Flags) : OnlyRegsAndFlags [] s (s.setFlags f) :=
  ⟨fun _ _ => rfl, fun _ => rfl, ⟨rfl, rfl, rfl, rfl, rfl⟩, rfl⟩

theorem OnlyRegsAndFlags.of_setReg (v : Byte) (f : Flags) : OnlyRegsAndFlags [a] s ((s.setReg a v).setFlags f) :=
  ⟨fun _ hr => s.reg_setReg_ne (List.ne_of_not_mem_cons hr) v, fun _ => rfl, ⟨rfl, rfl, rfl, rfl, rfl⟩, rfl⟩

theorem OnlyRegsAndFlags.of_setPair (v : Word) (f : Flags) :
    OnlyRegsAndFlags (pairRegs a) s ((s.setPair a v).setFlags f) := by
  refine ⟨fun r hr => ?_, fun _ => rfl, ⟨rfl, rfl, rfl, rfl, rfl⟩, rfl⟩
  obtain ⟨hhi, hlo⟩ : r ≠ pairHi a ∧ r ≠ pairLo a := by simpa [pairRegs] using hr
  exact s.reg_setPair_ne hhi hlo v

/-! ### Sums and differences -/

section

variable (hrow : FlagPolicy.default.row i.flagWriter = .adder)
include hrow

theorem Sum8.of_putSum8 {x y : Byte} {cin : Bool} (h : exec i s = .next (s.putSum8 i.flagWriter a (addW x y cin))) :
    Sum8 i s a x y cin := by
  have hreg : (s.putSum8 i.flagWriter a (addW x y cin)).reg a = (addW x y cin).1 := s.reg_setReg_same a _
  refine ⟨_, h, ?_, addW_carry x y cin, fun hd => ?_, .of_setReg _ _⟩
  · rw [hreg, toNat_addW]
  · rw [hreg, State.putSum8_flags, State.policyFlags_adder hd hrow]
    exact addW_flags x y cin (by decide)

theorem Diff8.of_putSum8 {x y : Byte} {borrow : Bool}
    (h : exec i s = .next (s.putSum8 i.flagWriter a (addW x (~~~y) (!borrow)))) : Diff8 i s a x y borrow := by
  have hreg : (s.putSum8 i.flagWriter a (addW x (~~~y) (!borrow))).reg a = (addW x (~~~y) (!borrow)).1 :=
    s.reg_setReg_same a _
  refine ⟨_, h, ?_, addW_not_carry x y borrow, fun hd => ?_, .of_setReg _ _⟩
  · rw [hreg, toNat_addW_not]
  · rw [hreg, State.putSum8_flags, State.policyFlags_adder hd hrow]
    exact addW_not_flags x y borrow (by decide)

theorem Sum16.of_putSum16 {x y : Word} (h : exec i s = .next (s.putSum16 i.flagWriter a (addW x y false))) :
    Sum16 i s a x y := by
  have hpair : (s.putSum16 i.flagWriter a (addW x y false)).pair a = (addW x y false).1 := s.pair_setPair_same a _
  refine ⟨_, h, ?_, fun hd => ?_, .of_setPair _ _⟩
  · rw [hpair, toNat_addW, Bool.toNat_false, Nat.add_zero]
  · rw [hpair, State.putSum16_flags, State.policyFlags_adder hd hrow]
    exact addW_flags x y false (by decide)

theorem Diff16.of_putSum16 {x y : Word} (h : exec i s = .next (s.putSum16 i.flagWriter a (subW x y))) :
    Diff16 i s a x y := by
  have hpair : (s.putSum16 i.flagWriter a (subW x y)).pair a = (subW x y).1 := s.pair_setPair_same a _
  refine ⟨_, h, ?_, fun hd => ?_, .of_setPair _ _⟩
  · rw [hpair]
    simpa [subW] using toNat_addW_not x y false
  · rw [hpair, State.putSum16_flags, State.policyFlags_adder hd hrow]
    exact addW_not_flags x y false (by decide)

theorem Compares.of_putFlagsCompare {w : Nat} (hw : 0 < w) {x y : BitVec w}
    (h : exec i s = .next (s.putFlagsCompare i.flagWriter (subW x y).2)) : Compares i s x y := by
  have hflags : (subW x y).2 = diffFlags x y false (x - y) := by
    rw [← subW_result]
    exact addW_not_flags x y false hw
  have hz : (diffFlags x y false (x - y)).z = decide (x = y) := by
    rw [diffFlags, decide_eq_decide, ← sub_eq_zero (a := x), ← BitVec.toNat_inj]
    rfl
  rw [hflags] at h
  refine ⟨_, h, ?_, ?_, fun hd => ?_, .of_setFlags _⟩
  · rfl
  · exact hz
  · rw [State.putFlagsCompare_flags, State.policyFlags_adder hd hrow]

end

/-! ### Results that set N and Z, and copies -/

theorem nzW_eq_nzFlags {w : Nat} (r : BitVec w) (old : Flags) : nzW r old = nzFlags r old := by
  have hz : (r == 0) = decide (r.toNat = 0) := by
    rw [Bool.eq_iff_iff]
    simp [BitVec.toNat_eq]
  rw [nzW, nzFlags, hz, BitVec.msb_eq_toInt]

theorem Computes8.of_putRegNz {P : Byte → Prop} {r : Byte} (hrow : FlagPolicy.default.row i.flagWriter = .nz)
    (h : exec i s = .next (s.putRegNz i.flagWriter a r)) (hr : P r) : Computes8 i s a P := by
  have hreg := s.reg_putRegNz_same i.flagWriter a r
  refine ⟨_, h, hreg.symm ▸ hr, fun hd => ?_, .of_setReg _ _⟩
  rw [hreg, State.putRegNz_flags, State.policyFlags_nz hd hrow]
  exact nzW_eq_nzFlags r s.flags

theorem Moves8.of_putRegNz {P : Byte → Prop} {v : Byte} (hi : keepsFlags i = true)
    (h : exec i s = .next (s.putRegNz i.flagWriter a v)) (hv : P v) : Moves8 i s a P :=
  ⟨_, h, (s.reg_putRegNz_same i.flagWriter a v).symm ▸ hv, fun hd => exec_flags_of_keepsFlags hi hd h, .of_setReg _ _⟩

theorem Moves16.of_putPairNz {v : Word} (hi : keepsFlags i = true)
    (h : exec i s = .next (s.putPairNz i.flagWriter a v)) : Moves16 i s a v :=
  ⟨_, h, s.pair_setPair_same a v, fun hd => exec_flags_of_keepsFlags hi hd h, .of_setPair _ _⟩

/-! ### Operands -/

theorem zext16_eq (v : Byte) : zext16 v = BitVec.ofNat 16 v.toNat := (BitVec.ofNat_toNat 16 v).symm

/-- The absolute value over the integers; that of the most negative value is the value itself, read without a sign. -/
theorem toNat_absW {w : Nat} (v : BitVec w) : (absW v).toNat = v.toInt.natAbs := by
  have habs : absW v = v.abs := by rw [absW, BitVec.abs_eq, zero_sub]
  have hv := v.isLt
  rw [habs, BitVec.toNat_abs, BitVec.toInt_eq_msb_cond]
  split <;> omega

end Sys2Proof.Machine

/-! # The obligations on 8-bit and 16-bit sums, differences, comparisons, 8-bit logic and copies -/

namespace Sys2Proof.Machine

/-- Settles O26: each arm writes the adder's sum, and its row of R31 is "adder". -/
theorem byteSums : Obligations.ByteSums := by
  intro s a b imm
  exact ⟨.of_putSum8 rfl rfl, .of_putSum8 rfl rfl, .of_putSum8 rfl rfl, .of_putSum8 rfl rfl⟩

/-- Settles O28: the 8-bit operand of addpbi and addpb is zero-extended. -/
theorem pairSums : Obligations.PairSums := by
  intro s a b imm
  rw [← zext16_eq, ← zext16_eq]
  exact ⟨.of_putSum16 rfl rfl, .of_putSum16 rfl rfl, .of_putSum16 rfl rfl⟩

/-- Settles O29: the 8-bit operand of subpbi and subpb is zero-extended, and negp is a difference from 0. -/
theorem pairDifferences : Obligations.PairDifferences := by
  intro s a b imm
  rw [← zext16_eq, ← zext16_eq]
  exact ⟨.of_putSum16 rfl rfl, .of_putSum16 rfl rfl, .of_putSum16 rfl rfl, .of_putSum16 rfl rfl⟩

/-- Settles O30: each arm writes the flags of the difference, with C and Z past the policy. -/
theorem comparisons : Obligations.Comparisons := by
  intro s a b imm
  exact ⟨.of_putFlagsCompare rfl (by decide) rfl, .of_putFlagsCompare rfl (by decide) rfl,
    .of_putFlagsCompare rfl (by decide) rfl⟩

/-! ### The immediates that stand for sbci and subi (40_group1_imm8.md R108, R109) -/

/-- The immediate of sbci is the complement of its operand. -/
theorem sbci_immediate (n : Byte) : 0xFF#8 - n = ~~~n := BitVec.allOnes_sub_eq_not n

/-- The immediate of subi is (0x100 - n) mod 0x100. -/
theorem toNat_subi_immediate (n : Byte) : (0#8 - n).toNat = (0x100 - n.toNat) % 0x100 := BitVec.toNat_sub 0#8 n

/-- Only -128 has no negative among the signed values: for every other n the immediate of subi is -n. -/
theorem toInt_subi_immediate {n : Byte} (hn : n ≠ 0x80#8) : (0#8 - n).toInt = -n.toInt := by
  rw [BitVec.zero_sub]
  exact BitVec.toInt_neg_of_ne_intMin hn

/-- A signed sum with -128 does not fit exactly if the other operand is negative. -/
theorem signedOverflow_add_neg_128 (x : Byte) : signedOverflow 8 (x.toInt + -128) = decide (0x80 ≤ x.toNat) := by
  have hx := toInt_cases x
  have hlt := x.isLt
  rw [signedOverflow, decide_eq_decide]
  omega

/-- Settles O31: sbci adds the complement, which is a subtraction with borrow. subi adds the negative of n: that of 0 is 0, so no carry
comes out, and that of 0x80 is 0x80 again, so the signed sum has -128 where the difference has +128. -/
theorem subtractionAliases : Obligations.SubtractionAliases := by
  intro s a n
  refine ⟨?sbci, ?subi⟩
  case sbci =>
    refine .of_putSum8 rfl ?_
    rw [sbci_immediate, Bool.not_not]
    rfl
  case subi =>
    obtain ⟨t, hexec, hresult, hcarry, hflags, hframe⟩ : Sum8 (.addi a (0#8 - n)) s a (s.reg a) (0#8 - n) false :=
      .of_putSum8 rfl rfl
    have himm := toNat_subi_immediate n
    have hn := n.isLt
    rw [Bool.toNat_false, Nat.add_zero] at hresult hcarry
    refine ⟨t, hexec, ?result, ?carry, fun hd => ?flags, hframe⟩
    case result => omega
    case carry =>
      rw [hcarry, ← Bool.decide_and, decide_eq_decide, ne_eq, BitVec.toNat_eq, BitVec.toNat_ofNat]
      omega
    case flags =>
      rw [hflags hd]
      refine ⟨rfl, ?z, ?v⟩
      case z => simp [sumFlags, BitVec.toNat_eq]
      case v =>
        rw [sumFlags, Bool.toNat_false, Nat.cast_zero, add_zero]
        split
        next h128 => rw [h128]; exact signedOverflow_add_neg_128 _
        next h128 => rw [toInt_subi_immediate h128, ← sub_eq_add_neg]

/-- Settles O33: each arm writes the value named, and its row of R31 is "nz". -/
theorem byteLogic : Obligations.ByteLogic := by
  intro s a b imm
  refine ⟨.of_putRegNz rfl rfl ?andi, .of_putRegNz rfl rfl ?orri, .of_putRegNz rfl rfl ?and, .of_putRegNz rfl rfl ?orr,
    .of_putRegNz rfl rfl ?xor, .of_putRegNz rfl rfl ?inv, .of_putRegNz rfl rfl ?abs⟩
  case andi | and => exact fun _ _ => BitVec.getLsbD_and
  case orri | orr => exact fun _ _ => BitVec.getLsbD_or
  case xor => exact fun _ _ => BitVec.getLsbD_xor
  case inv => exact fun k hk => by simp [hk]
  case abs => exact toNat_absW _

/-- Settles O39: each arm writes the value, and its row of R31 is "-". -/
theorem copies : Obligations.Copies := by
  intro s a b imm imm16
  exact ⟨.of_putRegNz rfl rfl rfl, .of_putRegNz rfl rfl rfl, .of_putPairNz rfl rfl, .of_putPairNz rfl rfl⟩

end Sys2Proof.Machine

/-! # Results in a pair, products, differences under FLAG_POLICY, and the signed order in their flags -/

namespace Sys2Proof.Machine

variable {i : Instr} {s : State} {a : Reg}

/-! ### A difference in a register whose flags are all under FLAG_POLICY -/

theorem difference_of_putReg {x y : Byte} (hrow : FlagPolicy.default.row i.flagWriter = .adder)
    (h : exec i s = .next (s.putReg i.flagWriter a (subW x y).1 (subW x y).2)) :
    ∃ t, exec i s = .next t ∧ ((t.reg a).toNat : Int) = ((x.toNat : Int) - y.toNat) % 2 ^ 8 ∧
      (DefaultFlags s → t.flags = diffFlags x y false (t.reg a)) ∧ OnlyRegsAndFlags [a] s t := by
  have hreg : (s.putReg i.flagWriter a (subW x y).1 (subW x y).2).reg a = (subW x y).1 := s.reg_setReg_same a _
  refine ⟨_, h, ?_, fun hd => ?_, .of_setReg _ _⟩
  · rw [hreg]
    simpa [subW] using toNat_addW_not x y false
  · rw [hreg, State.putReg_flags, State.policyFlags_adder hd hrow]
    exact addW_not_flags x y false (by decide)

/-! ### Results in a pair that set N and Z -/

theorem Computes16.of_putPairNz {P : Word → Prop} {r : Word} (hrow : FlagPolicy.default.row i.flagWriter = .nz)
    (h : exec i s = .next (s.putPairNz i.flagWriter a r)) (hr : P r) : Computes16 i s a P := by
  have hpair : (s.putPairNz i.flagWriter a r).pair a = r := s.pair_setPair_same a r
  refine ⟨_, h, hpair.symm ▸ hr, fun hd => ?_, .of_setPair _ _⟩
  rw [hpair, State.putPairNz_flags, State.policyFlags_nz hd hrow]
  exact nzW_eq_nzFlags r s.flags

/-! ### Products of two bytes fit 16 bits -/

theorem toNat_byteProduct (x y : Byte) : (BitVec.ofNat 16 (x.toNat * y.toNat)).toNat = x.toNat * y.toNat := by
  have hfits : x.toNat * y.toNat < 2 ^ 16 := BitVec.toNat_mul_toNat_lt
  rw [BitVec.toNat_ofNat, Nat.mod_eq_of_lt hfits]

theorem toInt_byteProduct (x y : Byte) : (BitVec.ofInt 16 (x.toInt * y.toInt)).toInt = x.toInt * y.toInt := by
  have hlo : -2 ^ 14 ≤ x.toInt * y.toInt := BitVec.le_toInt_mul_toInt
  have hhi : x.toInt * y.toInt ≤ 2 ^ 14 := BitVec.toInt_mul_toInt_le
  exact BitVec.toInt_ofInt_eq_self (by decide) (by omega) (by omega)

/-! ### The signed order in the flags of a difference -/

/-- The difference wraps exactly if it does not fit, and then its sign is the wrong one: N is the sign of the exact difference
unless V is set, and its complement where V is set. -/
theorem diffFlags_n_ne_v_iff {w : Nat} (hw : 0 < w) (x y : BitVec w) :
    (diffFlags x y false (x - y)).n ≠ (diffFlags x y false (x - y)).v ↔ x.toInt < y.toInt := by
  simp only [diffFlags, signedOverflow, BitVec.toInt_sub, Bool.toNat_false, Nat.cast_zero, sub_zero, ne_eq, decide_eq_decide]
  rcases lt_or_ge (x.toInt - y.toInt) (-2 ^ (w - 1)) with below | hlo
  · have wrapped := BitVec.toInt_sub_toInt_lt_twoPow_iff.mp below
    omega
  · rcases le_or_gt (2 ^ (w - 1)) (x.toInt - y.toInt) with above | hhi
    · have wrapped := BitVec.twoPow_le_toInt_sub_toInt_iff.mp above
      omega
    · have half : 2 * (2 : Int) ^ (w - 1) = 2 ^ w := mul_pow_sub_one hw.ne' 2
      have hpow : ((2 ^ w : Nat) : Int) = 2 ^ w := Nat.cast_pow 2 w
      have exact_sign : (x.toInt - y.toInt).bmod (2 ^ w) = x.toInt - y.toInt := Int.bmod_eq_of_le (by omega) (by omega)
      omega

theorem Compares.n_ne_v_iff {w : Nat} (hw : 0 < w) {x y : BitVec w} {t : State} (h : Compares i s x y)
    (hd : DefaultFlags s) (hexec : exec i s = .next t) : t.flags.n ≠ t.flags.v ↔ x.toInt < y.toInt := by
  obtain ⟨t', hexec', -, -, hflags, -⟩ := h
  obtain rfl : t' = t := Host.Outcome.next.inj (hexec'.symm.trans hexec)
  rw [hflags hd]
  exact diffFlags_n_ne_v_iff hw x y

end Sys2Proof.Machine

/-! # The obligations on byte differences, products, 16-bit logic and the signed order after a comparison -/

namespace Sys2Proof.Machine

/-- Settles O27: sub and sbc write the adder's sum with the complement of rB, and C past the policy. neg is a difference from 0
whose row of R31 is "adder". -/
theorem byteDifferences : Obligations.ByteDifferences := by
  intro s a b
  refine ⟨.of_putSum8 rfl rfl, .of_putSum8 rfl ?sbc, ?neg⟩
  case sbc =>
    rw [Bool.not_not]
    rfl
  case neg => simpa only [BitVec.toNat_ofNat, Nat.zero_mod, Nat.cast_zero, zero_sub] using difference_of_putReg (x := 0#8) rfl rfl

/-- Settles O32: a product of two bytes, unsigned or signed, is exact in 16 bits, and the row of R31 is "nz". -/
theorem products : Obligations.Products := by
  intro s a b
  exact ⟨.of_putPairNz rfl rfl (toNat_byteProduct _ _), .of_putPairNz rfl rfl (toInt_byteProduct _ _)⟩

/-- Settles O34: each arm writes the value named, and its row of R31 is "nz". -/
theorem pairLogic : Obligations.PairLogic := by
  intro s a b
  refine ⟨.of_putPairNz rfl rfl ?andp, .of_putPairNz rfl rfl ?orrp, .of_putPairNz rfl rfl ?xorp,
    .of_putPairNz rfl rfl ?invp, .of_putPairNz rfl rfl ?absp⟩
  case andp => exact fun _ _ => BitVec.getLsbD_and
  case orrp => exact fun _ _ => BitVec.getLsbD_or
  case xorp => exact fun _ _ => BitVec.getLsbD_xor
  case invp => exact fun k hk => by simp [hk]
  case absp => exact toNat_absW _

/-- Settles O60: the flags are those of the difference (`comparisons`), at both widths. -/
theorem signedOrderAfterCompare : Obligations.SignedOrderAfterCompare := by
  intro s t u a b hd hcmp hcmpp
  obtain ⟨-, cmp, cmpp⟩ := comparisons s a b 0#8
  exact ⟨cmp.n_ne_v_iff (by decide) hd hcmp, cmpp.n_ne_v_iff (by decide) hd hcmpp⟩

end Sys2Proof.Machine

/-! # Shifts and rotates: the formulas of R148 over exact integers, and the rotates through carry -/

namespace Sys2Proof.Machine

/-! ### The formulas of R148 (42_group2_shift_copy_call.md), at every width -/

section

variable {w : Nat} (v : BitVec w) (n : Nat)

theorem toNat_lslW : (lslW v n).toNat = specLsl w v.toNat n := by
  rw [lslW, BitVec.toNat_shiftLeft, Nat.shiftLeft_eq, specLsl]

theorem toNat_lsrW : (lsrW v n).toNat = specLsr v.toNat n := by
  rw [lsrW, BitVec.toNat_ushiftRight, Nat.shiftRight_eq_div_pow, specLsr]

/-- Divided by 2^(w-1) or more, a value of w bits is down to its sign: 0 or -1. -/
theorem toInt_ediv_two_pow {n : Nat} (hn : w - 1 ≤ n) : v.toInt / 2 ^ n = v.toInt / 2 ^ (w - 1) := by
  have hlo := v.le_toInt
  have hhi := v.toInt_lt
  have hpow : (2 : Int) ^ (w - 1) ≤ 2 ^ n := pow_le_pow_right₀ (by decide) hn
  rcases lt_or_ge v.toInt 0 with neg | nonneg
  · rw [Int.ediv_eq_neg_one_of_neg_of_le neg (by omega), Int.ediv_eq_neg_one_of_neg_of_le neg (by omega)]
  · rw [Int.ediv_eq_zero_of_lt nonneg (by omega), Int.ediv_eq_zero_of_lt nonneg hhi]

/-- The formula cuts the count off at w-1, the shift does not: past w-1 nothing changes any more. -/
theorem toInt_asrW : (asrW v n).toInt = specAsr v n := by
  rw [asrW, BitVec.toInt_sshiftRight, Int.shiftRight_eq_div_pow, Nat.cast_pow, Nat.cast_ofNat, specAsr]
  rcases le_total n (w - 1) with hn | hn
  · rw [min_eq_left hn]
  · rw [min_eq_right hn, toInt_ediv_two_pow v hn]

theorem toNat_rolW : (rolW v n).toNat = specRol w v.toNat n := by
  rw [rolW, BitVec.toNat_rotateLeft, Nat.shiftLeft_eq, Nat.shiftRight_eq_div_pow, specRol]

theorem toNat_rorW : (rorW v n).toNat = specRor w v.toNat n := by
  rw [rorW, BitVec.toNat_rotateRight, Nat.shiftLeft_eq, Nat.shiftRight_eq_div_pow, specRor]

end

/-! ### The count -/

theorem State.countOf_eq_shiftAmount (s : State) (w : Nat) (b : Reg) :
    s.countOf w b = s.shiftAmount w (s.reg b).toNat := by
  rw [State.countOf, State.shiftAmount]
  cases s.cfg.shiftCountMode <;> rfl

/-- 47_group6_shift_imm4.md R255: a 4-bit count is below 16, so neither mode changes it. -/
theorem State.countOfImm_eq_toNat (s : State) (imm : BitVec 4) : s.countOfImm imm = imm.toNat := by
  rw [State.countOfImm]
  cases s.cfg.shiftCountMode with
  | full => rfl
  | masked => exact Nat.mod_eq_of_lt imm.isLt

/-! ### C ++ value as one value of w + 1 bits (R155, R156, R162, R163) -/

section

variable {w : Nat} (hw : 0 < w) (c : Bool) (v : BitVec w)
include hw

/-- One bit to the left: C comes in at bit 0, the top bit goes out to C. -/
theorem rotateLeft_carry_append :
    (BitVec.ofBool c ++ v).rotateLeft 1 = BitVec.ofBool v.msb ++ ((v <<< 1) ||| (BitVec.ofBool c).setWidth w) := by
  have hone : 1 % (1 + w) = 1 := Nat.mod_eq_of_lt (by omega)
  ext k hk
  simp only [BitVec.getElem_append, BitVec.getElem_rotateLeft, hone]
  obtain rfl | ⟨inner, pos⟩ | rfl : k = 0 ∨ (k < w ∧ 0 < k) ∨ k = w := by omega
  · simp [hw]
  · simp [inner, pos.ne', show k - 1 < w by omega]
  · simp [hw, hw.ne', BitVec.msb_eq_getLsbD_last]

/-- One bit to the right: C comes in at the top bit, bit 0 goes out to C. -/
theorem rotateRight_carry_append :
    (BitVec.ofBool c ++ v).rotateRight 1 =
      BitVec.ofBool (v.getLsbD 0) ++ ((v >>> 1) ||| ((BitVec.ofBool c).setWidth w <<< (w - 1))) := by
  have hone : 1 % (1 + w) = 1 := Nat.mod_eq_of_lt (by omega)
  ext k hk
  simp only [BitVec.getElem_append, BitVec.getElem_rotateRight, hone]
  obtain inner | rfl | rfl : 1 + k < w ∨ k = w - 1 ∨ k = w := by omega
  · simp [inner, show k < w by omega, show k < w - 1 by omega]
  · simp [hw, show 1 + (w - 1) = w by omega]
  · simp [hw]

end

/-! ### Results of a rotate through carry: C is past the policy (10_state.md R29), N and Z are under it -/

section

variable {i : Instr} {s : State} {a : Reg} {out : Bool} (hrow : FlagPolicy.default.row i.flagWriter = .rotate)
include hrow

theorem rotates_of_putRotated8 {r : Byte} {v : BitVec (1 + 8)}
    (h : exec i s = .next (s.putRotated8 i.flagWriter a r out)) (hv : v = BitVec.ofBool out ++ r) :
    ∃ t, exec i s = .next t ∧ BitVec.ofBool t.flags.c ++ t.reg a = v ∧
      (DefaultFlags s → t.flags = { nzFlags (t.reg a) s.flags with c := t.flags.c }) ∧ OnlyRegsAndFlags [a] s t := by
  have hreg : (s.putRotated8 i.flagWriter a r out).reg a = r := s.reg_setReg_same a r
  refine ⟨_, h, ?_, fun hd => ?_, .of_setReg _ _⟩
  · rw [hreg]
    exact hv.symm
  · rw [hreg, ← nzW_eq_nzFlags, State.putRotated8_flags, State.policyFlags_rotate hd hrow]
    rfl

theorem rotates_of_putRotated16 {r : Word} {v : BitVec (1 + 16)}
    (h : exec i s = .next (s.putRotated16 i.flagWriter a r out)) (hv : v = BitVec.ofBool out ++ r) :
    ∃ t, exec i s = .next t ∧ BitVec.ofBool t.flags.c ++ t.pair a = v ∧
      (DefaultFlags s → t.flags = { nzFlags (t.pair a) s.flags with c := t.flags.c }) ∧
      OnlyRegsAndFlags (pairRegs a) s t := by
  have hpair : (s.putRotated16 i.flagWriter a r out).pair a = r := s.pair_setPair_same a r
  refine ⟨_, h, ?_, fun hd => ?_, .of_setPair _ _⟩
  · rw [hpair]
    exact hv.symm
  · rw [hpair, ← nzW_eq_nzFlags, State.putRotated16_flags, State.policyFlags_rotate hd hrow]
    rfl

end

end Sys2Proof.Machine

/-! # Two pairs written one after the other: swp and the calls -/

namespace Sys2Proof.Machine

variable {s t u : State} {a b : Reg}

theorem OnlyRegsAndFlags.trans {rs rs' : List Reg} (h : OnlyRegsAndFlags rs s t) (h' : OnlyRegsAndFlags rs' t u) :
    OnlyRegsAndFlags (rs ++ rs') s u := by
  obtain ⟨hregs, hmem, ⟨hie, hira, hcfg, hirqs, hdraw⟩, hlog⟩ := h
  obtain ⟨hregs', hmem', ⟨hie', hira', hcfg', hirqs', hdraw'⟩, hlog'⟩ := h'
  refine ⟨fun r hr => ?_, fun q => (hmem' q).trans (hmem q),
    ⟨hie'.trans hie, hira'.trans hira, hcfg'.trans hcfg, hirqs'.trans hirqs, hdraw'.trans hdraw⟩, hlog'.trans hlog⟩
  obtain ⟨hne, hne'⟩ := not_or.mp (List.mem_append.not.mp hr)
  exact (hregs' r hne').trans (hregs r hne)

theorem OnlyRegsAndFlags.of_setPair_setPair (v w : Word) (f : Flags) :
    OnlyRegsAndFlags (pairRegs a ++ pairRegs b) s (((s.setPair a v).setPair b w).setFlags f) :=
  .trans (.of_setPair v s.flags) (.of_setPair w f)

variable (s)

theorem State.pair_eq_of_samePair (h : SamePair a b) : s.pair a = s.pair b := by
  rw [State.pair, State.pair, show pairHi a = pairHi b from h, pairLo_eq_iff.mpr h]

theorem State.lr_setPc (v : Word) : (s.setPc v).lr = s.lr := s.pair_setPair pcPair lrPair v

theorem State.pair_setLr (x : Reg) (v : Word) : (s.setLr v).pair x = if pairHi x = pairHi lrPair then v else s.pair x :=
  s.pair_setPair lrPair x v

/-- R171, R241: an instruction of a "-" row that writes the return address to lr and then a target to the pc. -/
theorem calls_of_exec {i : Instr} {target : Word} (hi : keepsFlags i = true)
    (h : exec i s = .next (((s.setLr s.pc).setPc target).settleFlags i.flagWriter)) :
    ∃ t, exec i s = .next t ∧ t.lr = s.pc ∧ t.pc = target ∧ OnlyRegs [12, 13, 14, 15] s t := by
  refine ⟨_, h, ?lr, ?pc, .of_setPair_setPair (a := lrPair) (b := pcPair) _ _ _, fun hd => exec_flags_of_keepsFlags hi hd h⟩
  case lr => exact ((s.setLr s.pc).lr_setPc target).trans (s.lr_setLr s.pc)
  case pc => exact (s.setLr s.pc).pc_setPc target

end Sys2Proof.Machine

/-! # The obligations on shifts, rotates, the flags byte, swp and the calls -/

namespace Sys2Proof.Machine

/-- Settles O35: each arm writes its formula of R148 by the count that `State.countOf` gives, and its row of R31 is "nz". -/
theorem byteShifts : Obligations.ByteShifts := by
  intro s a b
  rw [← s.countOf_eq_shiftAmount 8 b]
  exact ⟨.of_putRegNz rfl rfl (toNat_lslW _ _), .of_putRegNz rfl rfl (toNat_lsrW _ _), .of_putRegNz rfl rfl (toInt_asrW _ _),
    .of_putRegNz rfl rfl (toNat_rolW _ _), .of_putRegNz rfl rfl (toNat_rorW _ _)⟩

/-- Settles O36: as `byteShifts`, at width 16. -/
theorem pairShifts : Obligations.PairShifts := by
  intro s a b
  rw [← s.countOf_eq_shiftAmount 16 b]
  exact ⟨.of_putPairNz rfl rfl (toNat_lslW _ _), .of_putPairNz rfl rfl (toNat_lsrW _ _), .of_putPairNz rfl rfl (toInt_asrW _ _),
    .of_putPairNz rfl rfl (toNat_rolW _ _), .of_putPairNz rfl rfl (toNat_rorW _ _)⟩

/-- Settles O37: as `pairShifts`, by an immediate that is its own count in either mode. -/
theorem immediateShifts : Obligations.ImmediateShifts := by
  intro s a imm
  rw [← s.countOfImm_eq_toNat imm]
  exact ⟨.of_putPairNz rfl rfl (toNat_lslW _ _), .of_putPairNz rfl rfl (toNat_lsrW _ _), .of_putPairNz rfl rfl (toInt_asrW _ _),
    .of_putPairNz rfl rfl (toNat_rolW _ _), .of_putPairNz rfl rfl (toNat_rorW _ _)⟩

/-- Settles O38: the value written and the bit put into C are together the rotated C ++ value, and the row of R31 is "rotate". -/
theorem rotatesThroughCarry : Obligations.RotatesThroughCarry := by
  intro s a
  refine ⟨rotates_of_putRotated8 rfl rfl ?rolc, rotates_of_putRotated8 rfl rfl ?rorc,
    rotates_of_putRotated16 rfl rfl ?rolcp, rotates_of_putRotated16 rfl rfl ?rorcp⟩
  case rolc | rolcp => exact rotateLeft_carry_append (by decide) _ _
  case rorc | rorcp => exact rotateRight_carry_append (by decide) _ _

/-- Settles O40: cpyfrf writes the flags byte, and its row of R31 is "-"; cpytof reads each flag from its bit, past the policy. -/
theorem flagsByteMoves : Obligations.FlagsByteMoves := by
  intro s a
  exact ⟨.of_putRegNz rfl rfl (isFlagsByte_flagsByte s.cfg s.flags), _, rfl, rfl, rfl, rfl, rfl, .of_setFlags _⟩

/-- Settles O41: whatever the policy makes of the flags at cpyfrf, cpytof reads the flags byte that it wrote. -/
theorem flagsByteRoundTrip : Obligations.FlagsByteRoundTrip := by
  intro s t u a hbits hcpyfrf hcpytof
  obtain rfl : s.putRegNz (.g2 .cpyfrf) a (flagsByte s.cfg s.flags) = t := Host.Outcome.next.inj hcpyfrf
  obtain rfl := Host.Outcome.next.inj hcpytof
  rw [State.setFlags_flags, State.putRegNz_cfg, State.reg_putRegNz_same]
  exact flagsOfByte_flagsByte hbits s.flags

/-- Settles O42: both pairs are read before either is written; where they are one pair, its own value is written back. -/
theorem swapExchangesPairs : Obligations.SwapExchangesPairs := by
  intro s a b
  have hexec : exec (.swp a b) s =
    .next (((s.setPair a (s.pair b)).setPair b (s.pair a)).putFlags (.g2 .swp) (nzW (s.pair b) s.flags)) := rfl
  refine ⟨_, hexec, ?first, ?second, .of_setPair_setPair _ _ _, fun hd => exec_flags_of_keepsFlags rfl hd hexec⟩
  case first =>
    rw [State.pair_putFlags, State.pair_setPair]
    split
    next same => exact s.pair_eq_of_samePair same
    next => exact s.pair_setPair_same a _
  case second => rw [State.pair_putFlags, State.pair_setPair_same]

/-- Settles O43: call reads its target once lr is written, so the target is the return address where rAp is lr. -/
theorem calls : Obligations.Calls := by
  intro s a imm
  refine ⟨?call, calls_of_exec s rfl rfl⟩
  obtain ⟨t, hexec, hlr, hpc, hframe⟩ : ∃ t, exec (.call a) s = .next t ∧ t.lr = s.pc ∧ t.pc = (s.setLr s.pc).pair a ∧
    OnlyRegs [12, 13, 14, 15] s t := calls_of_exec s rfl rfl
  rw [State.pair_setLr] at hpc
  exact ⟨t, hexec, hlr, fun same => hpc.trans (if_pos same), fun other => hpc.trans (if_neg other), hframe⟩

end Sys2Proof.Machine

/-! # What a load gives and what a store leaves, as the memory map sees them -/

namespace Sys2Proof.Machine

variable {s t u : State} {i : Instr} {a b : Reg} {ea : Word}

/-! ### Pointers and frames -/

@[simp] theorem State.pair_pairDown (s : State) (b : Reg) (n : Word) : (s.pairDown b n).pair b = s.pair b - n :=
  s.pair_setPair_same b _

theorem State.pair_putRegNz_hi (s : State) (w : FlagWriter) (b : Reg) (v : Byte) :
    (s.putRegNz w (pairHi b) v).pair b = Word.ofBytes v (s.reg (pairLo b)) :=
  (s.pair_setReg b (pairHi b) v).trans (by simp)

theorem State.pair_putRegNz_lo (s : State) (w : FlagWriter) (b : Reg) (v : Byte) :
    (s.putRegNz w (pairLo b) v).pair b = Word.ofBytes (s.reg (pairHi b)) v :=
  (s.pair_setReg b (pairLo b) v).trans (by simp)

theorem State.pair_of_sameRegs (h : SameRegsExcept [] s t) (x : Reg) : t.pair x = s.pair x := by
  rw [State.pair, h _ List.not_mem_nil, h _ List.not_mem_nil, State.pair]

theorem SameControl.trans (h : SameControl s u) (h' : SameControl u t) : SameControl s t := by
  obtain ⟨hie, hira, hcfg, hirqs, hdraw⟩ := h
  obtain ⟨hie', hira', hcfg', hirqs', hdraw'⟩ := h'
  exact ⟨hie'.trans hie, hira'.trans hira, hcfg'.trans hcfg, hirqs'.trans hirqs, hdraw'.trans hdraw⟩

theorem OnlyRegsAndFlags.mono {rs rs' : List Reg} (hsub : rs ⊆ rs') (h : OnlyRegsAndFlags rs s t) :
    OnlyRegsAndFlags rs' s t := by
  obtain ⟨hregs, hrest⟩ := h
  exact ⟨fun r hr => hregs r fun hmem => hr (hsub hmem), hrest⟩

theorem OnlyRegsAndFlags.of_pairUp (n : Word) : OnlyRegsAndFlags (pairRegs b) s (s.pairUp b n) := .of_setPair _ s.flags

theorem OnlyRegsAndFlags.of_pairDown (n : Word) : OnlyRegsAndFlags (pairRegs b) s (s.pairDown b n) := .of_setPair _ s.flags

/-! ### Loads: the state with its record of device accesses grown, and the byte or the pair -/

/-- The state with another record of device accesses. -/
def State.withDevLog (s : State) (log : List DeviceAccess) : State := { s with devLog := log }

@[simp] theorem State.pair_withDevLog (s : State) (log : List DeviceAccess) (x : Reg) :
    (s.withDevLog log).pair x = s.pair x := rfl

@[simp] theorem State.reg_withDevLog (s : State) (log : List DeviceAccess) (x : Reg) :
    (s.withDevLog log).reg x = s.reg x := rfl

/-- A load of the listed registers happened if they are all that is written once the record has grown. -/
theorem OnlyRegsAndFlags.loaded {rs : List Reg} {log : List DeviceAccess} (h : OnlyRegsAndFlags rs (s.withDevLog log) t) :
    Loaded rs log s t := h

theorem State.load8_eq_cellRead (hm : Mapped s ea) :
    s.load8 ea = .ok (s.cellRead s.devLog ea, s.withDevLog (s.logAfterLoad s.devLog ea)) := by
  rcases s.load8_cases ea with ⟨ram | rom, e⟩ | ⟨device, e⟩ | ⟨none, _⟩
  · rw [e, State.cellRead, State.logAfterLoad, ram]
    rfl
  · rw [e, State.cellRead, State.logAfterLoad, rom]
    rfl
  · rw [e, State.cellRead, State.logAfterLoad, if_pos device, if_pos device]
    rfl
  · exact absurd none hm

/-- 20_memory.md R43, R47: the second byte is read after the first one, so its record begins with that of the first. -/
theorem State.load16_eq_cellRead16 (hm : Mapped s ea) (hm' : Mapped s (ea + 1#16)) :
    s.load16 ea = .ok (s.cellRead16 ea, s.withDevLog (s.logAfterLoad16 ea)) := by
  have low : (s.withDevLog (s.logAfterLoad s.devLog ea)).load8 (ea + 1#16) =
      .ok (s.cellRead (s.logAfterLoad s.devLog ea) (ea + 1#16), s.withDevLog (s.logAfterLoad16 ea)) :=
    State.load8_eq_cellRead hm'
  exact (except_bind_of_ok (State.load8_eq_cellRead hm) _).trans (except_bind_of_ok low _)

/-- A load through a pointer that has moved up first. -/
theorem State.load8_pairUp {n : Word} (hm : Mapped s (s.pair b + n)) :
    (s.pairUp b n).load8 ((s.pairUp b n).pair b) =
      .ok (s.cellRead s.devLog (s.pair b + n), (s.withDevLog (s.logAfterLoad s.devLog (s.pair b + n))).pairUp b n) := by
  rw [State.pair_pairUp]
  exact State.load8_eq_cellRead (s := s.pairUp b n) hm

theorem State.load16_pairUp {n : Word} (hm : Mapped s (s.pair b + n)) (hm' : Mapped s (s.pair b + n + 1#16)) :
    (s.pairUp b n).load16 ((s.pairUp b n).pair b) =
      .ok (s.cellRead16 (s.pair b + n), (s.withDevLog (s.logAfterLoad16 (s.pair b + n))).pairUp b n) := by
  rw [State.pair_pairUp]
  exact State.load16_eq_cellRead16 (s := s.pairUp b n) hm hm'

/-- What the rest of an instruction makes of an access that has succeeded. -/
theorem exec_of_access {α : Type} {x : Except Refusal α} {v : α} {k : α → State} (hx : x = .ok v)
    (h : exec i s = finish (x >>= fun v => .ok (k v))) : exec i s = .next (k v) :=
  h.trans (finish_eq_next.mpr (except_bind_of_ok hx _))

/-- An instruction of a "-" row that loads a byte at ea into rA and ends. -/
theorem Loads8.of_putRegNz (hi : keepsFlags i = true)
    (h : exec i s = finish (s.load8 ea >>= fun p => .ok (p.2.putRegNz i.flagWriter a p.1))) : Loads8 i s a ea := by
  intro hm
  have hexec := exec_of_access (State.load8_eq_cellRead hm) h
  exact ⟨_, hexec, State.reg_putRegNz_same _ _ _ _, fun hd => exec_flags_of_keepsFlags hi hd hexec,
    OnlyRegsAndFlags.loaded (.of_setReg _ _)⟩

/-- An instruction of a "-" row that loads two bytes at ea into the pair of rA and ends. -/
theorem Loads16.of_putPairNz (hi : keepsFlags i = true)
    (h : exec i s = finish (s.load16 ea >>= fun p => .ok (p.2.putPairNz i.flagWriter a p.1))) : Loads16 i s a ea := by
  intro hm hm'
  have hexec := exec_of_access (State.load16_eq_cellRead16 hm hm') h
  exact ⟨_, hexec, State.pair_setPair_same _ _ _, fun hd => exec_flags_of_keepsFlags hi hd hexec,
    OnlyRegsAndFlags.loaded (.of_setPair _ _)⟩

/-! ### Loads that move their pointer (R182, R184, R186, R190, R192): the next state -/

theorem exec_ldrab (hm : Mapped s (s.pair b + 1#16)) :
    exec (.ldrab a b) s =
      .next (((s.withDevLog (s.logAfterLoad s.devLog (s.pair b + 1#16))).pairUp b 1#16).putRegNz (.g2 .ldrab) a
        (s.cellRead s.devLog (s.pair b + 1#16))) :=
  finish_eq_next.mpr (except_bind_of_ok (State.load8_pairUp hm) _)

theorem exec_ldrsa (hm : Mapped s (s.pair b)) :
    exec (.ldrsa a b) s =
      .next (((s.withDevLog (s.logAfterLoad s.devLog (s.pair b))).putRegNz (.g2 .ldrsa) a
        (s.cellRead s.devLog (s.pair b))).pairDown b 1#16) :=
  finish_eq_next.mpr (except_bind_of_ok (State.load8_eq_cellRead hm) _)

theorem exec_ldfab (hm : Mapped s (s.pair b + 1#16)) :
    exec (.ldfab b) s =
      .next (((s.withDevLog (s.logAfterLoad s.devLog (s.pair b + 1#16))).pairUp b 1#16).setFlags
        (flagsOfByte s.cfg (s.cellRead s.devLog (s.pair b + 1#16)))) :=
  finish_eq_next.mpr (except_bind_of_ok (State.load8_pairUp hm) _)

theorem exec_ldpab (hm : Mapped s (s.pair b + 2#16)) (hm' : Mapped s (s.pair b + 2#16 + 1#16)) :
    exec (.ldpab a b) s =
      .next (((s.withDevLog (s.logAfterLoad16 (s.pair b + 2#16))).pairUp b 2#16).putPairNz (.g2 .ldpab) a
        (s.cellRead16 (s.pair b + 2#16))) :=
  finish_eq_next.mpr (except_bind_of_ok (State.load16_pairUp hm hm') _)

theorem exec_ldpsa (hm : Mapped s (s.pair b)) (hm' : Mapped s (s.pair b + 1#16)) :
    exec (.ldpsa a b) s =
      .next (((s.withDevLog (s.logAfterLoad16 (s.pair b))).putPairNz (.g2 .ldpsa) a (s.cellRead16 (s.pair b))).pairDown b 2#16) :=
  finish_eq_next.mpr (except_bind_of_ok (State.load16_eq_cellRead16 hm hm') _)

/-! ### Stores: what every cell holds afterwards, and the frame -/

/-- The content of every cell after a store of the byte v at ea. -/
def State.cellsAfterStore (s : State) (ea : Word) (v : Byte) (q : Word) : Byte :=
  if q = ea ∧ s.kindAt ea = .ram then v else s.byteAt q

/-- The content of every cell after a store of the pair v at ea. -/
def State.cellsAfterStore16 (s : State) (ea v : Word) (q : Word) : Byte :=
  if q = ea ∧ s.kindAt ea = .ram then v.high
  else if q = ea + 1#16 ∧ s.kindAt (ea + 1#16) = .ram then v.low else s.byteAt q

/-- The memory cells and the record of device accesses are as given; of the rest only the listed registers and the flags may differ.
`Stored8` and `Stored16` say this, and their flag clause (`StoreFrame.stored8`, `StoreFrame.stored16`). -/
structure StoreFrame (rs : List Reg) (cells : Word → Byte) (log : List DeviceAccess) (s t : State) : Prop where
  cells : ∀ q, t.byteAt q = cells q
  regs : SameRegsExcept rs s t
  control : SameControl s t
  devLog : t.devLog = log

namespace StoreFrame

variable {rs : List Reg} {cells : Word → Byte} {log : List DeviceAccess}

theorem stored8 {v : Byte} (hi : keepsFlags i = true) (hexec : exec i s = .next t)
    (h : StoreFrame rs (s.cellsAfterStore ea v) (s.logAfterStore s.devLog ea v) s t) : Stored8 rs ea v s t :=
  ⟨h.cells, h.regs, h.control, fun hd => exec_flags_of_keepsFlags hi hd hexec, h.devLog⟩

theorem stored16 {v : Word} (hi : keepsFlags i = true) (hexec : exec i s = .next t)
    (h : StoreFrame rs (s.cellsAfterStore16 ea v) (s.logAfterStore16 ea v) s t) : Stored16 rs ea v s t :=
  ⟨h.cells, h.regs, h.control, fun hd => exec_flags_of_keepsFlags hi hd hexec, h.devLog⟩

/-- Registers are written before the store. -/
theorem of_regs (hregs : OnlyRegsAndFlags rs s u) (h : StoreFrame [] cells log u t) : StoreFrame rs cells log s t := by
  obtain ⟨regs, -, control, -⟩ := hregs
  exact ⟨h.cells, fun r hr => (h.regs r List.not_mem_nil).trans (regs r hr), control.trans h.control, h.devLog⟩

/-- Registers or flags are written after the store. -/
theorem then_regs (h : StoreFrame [] cells log s u) (hregs : OnlyRegsAndFlags rs u t) : StoreFrame rs cells log s t := by
  obtain ⟨regs, mem, control, devLog⟩ := hregs
  exact ⟨fun q => (mem q).trans (h.cells q), fun r hr => (regs r hr).trans (h.regs r List.not_mem_nil),
    h.control.trans control, devLog.trans h.devLog⟩

end StoreFrame

/-- 20_memory.md R41: where something lies the store of a byte succeeds; only ram holds it. -/
theorem State.store8_frame (hm : Mapped s ea) (v : Byte) :
    ∃ t, s.store8 ea v = .ok t ∧ StoreFrame [] (s.cellsAfterStore ea v) (s.logAfterStore s.devLog ea v) s t := by
  rcases s.store8_cases ea v with ⟨ram, e⟩ | ⟨rom, e⟩ | ⟨device, e⟩ | ⟨none, _⟩
  · refine ⟨_, e, fun q => ?_, fun _ _ => rfl, ⟨rfl, rfl, rfl, rfl, rfl⟩, ?_⟩
    · simp [State.byteAt_setByte, State.cellsAfterStore, ram]
    · simp [State.logAfterStore, ram]
  · refine ⟨_, e, fun q => ?_, fun _ _ => rfl, ⟨rfl, rfl, rfl, rfl, rfl⟩, ?_⟩
    · simp [State.cellsAfterStore, rom]
    · simp [State.logAfterStore, rom]
  · refine ⟨_, e, fun q => ?_, fun _ _ => rfl, ⟨rfl, rfl, rfl, rfl, rfl⟩, ?_⟩
    · simp [State.cellsAfterStore, device]
    · simp [State.logAfterStore, device]
  · exact absurd none hm

/-- The two bytes of a 16-bit store lie at two addresses, so the store of the low one leaves the high one. -/
theorem State.cellsAfterStore_cellsAfterStore (hcfg : u.cfg = s.cfg) (v : Word) (q : Word)
    (hu : ∀ q, u.byteAt q = s.cellsAfterStore ea v.high q) :
    u.cellsAfterStore (ea + 1#16) v.low q = s.cellsAfterStore16 ea v q := by
  rw [State.cellsAfterStore, hu, State.kindAt_of_cfg hcfg, State.cellsAfterStore, State.cellsAfterStore16]
  by_cases first : q = ea
  · simp [first, (Word.add_one_ne ea).symm]
  · simp [first]

theorem State.store16_frame (hm : Mapped s ea) (hm' : Mapped s (ea + 1#16)) (v : Word) :
    ∃ t, s.store16 ea v = .ok t ∧ StoreFrame [] (s.cellsAfterStore16 ea v) (s.logAfterStore16 ea v) s t := by
  obtain ⟨u, high, hu⟩ := State.store8_frame hm v.high
  obtain ⟨-, -, hcfg, -, -⟩ := hu.control
  have hmu : Mapped u (ea + 1#16) := by rwa [Mapped, State.kindAt_of_cfg hcfg]
  obtain ⟨t, low, ht⟩ := State.store8_frame hmu v.low
  refine ⟨t, (except_bind_of_ok high _).trans low, fun q => ?cells, fun r hr => (ht.regs r hr).trans (hu.regs r hr),
    hu.control.trans ht.control, ?devLog⟩
  case cells => rw [ht.cells, State.cellsAfterStore_cellsAfterStore hcfg v q hu.cells]
  case devLog =>
    rw [ht.devLog, hu.devLog, State.logAfterStore, State.kindAt_of_cfg hcfg]
    rfl

theorem State.storeReg_frame (hm : Mapped s ea) (w : FlagWriter) (v : Byte) :
    ∃ t, s.storeReg w ea v = .ok t ∧ StoreFrame [] (s.cellsAfterStore ea v) (s.logAfterStore s.devLog ea v) s t := by
  obtain ⟨u, hu, hframe⟩ := State.store8_frame hm v
  exact ⟨_, except_bind_of_ok hu _, hframe.then_regs (.of_setFlags _)⟩

theorem State.storePair_frame (hm : Mapped s ea) (hm' : Mapped s (ea + 1#16)) (w : FlagWriter) (v : Word) :
    ∃ t, s.storePair w ea v = .ok t ∧ StoreFrame [] (s.cellsAfterStore16 ea v) (s.logAfterStore16 ea v) s t := by
  obtain ⟨u, hu, hframe⟩ := State.store16_frame hm hm' v
  exact ⟨_, except_bind_of_ok hu _, hframe.then_regs (.of_setFlags _)⟩

/-- R187: once the flags byte is stored, the pointer moves as the parameters say. -/
theorem exec_stfsa (hstore : s.storeReg (.g2 .stfsa) (s.pair b) (flagsByte s.cfg s.flags) = .ok u) (hcfg : u.cfg = s.cfg) :
    exec (.stfsa b) s =
      .next (if s.cfg.stfsaDirection = .subtract then u.pairDown b 1#16 else u.pairUp b 1#16) := by
  refine finish_eq_next.mpr ((except_bind_of_ok hstore _).trans ?_)
  simp only [hcfg]
  cases s.cfg.stfsaDirection <;> rfl

/-! ### Store instructions of the "-" rows: alone, after the pointer has moved up, and before it moves -/

section

variable (hi : keepsFlags i = true)
include hi

theorem stored8_of_storeReg {v : Byte} (h : exec i s = finish (s.storeReg i.flagWriter ea v)) (hm : Mapped s ea) :
    ∃ t, exec i s = .next t ∧ Stored8 [] ea v s t := by
  obtain ⟨t, hstore, hframe⟩ := State.storeReg_frame hm i.flagWriter v
  have hexec : exec i s = .next t := h.trans (finish_eq_next.mpr hstore)
  exact ⟨t, hexec, hframe.stored8 hi hexec⟩

theorem stored16_of_storePair {v : Word} (h : exec i s = finish (s.storePair i.flagWriter ea v)) (hm : Mapped s ea)
    (hm' : Mapped s (ea + 1#16)) : ∃ t, exec i s = .next t ∧ Stored16 [] ea v s t := by
  obtain ⟨t, hstore, hframe⟩ := State.storePair_frame hm hm' i.flagWriter v
  have hexec : exec i s = .next t := h.trans (finish_eq_next.mpr hstore)
  exact ⟨t, hexec, hframe.stored16 hi hexec⟩

theorem stored8_of_pairUp {n : Word} {v : Byte}
    (h : exec i s = finish ((s.pairUp b n).storeReg i.flagWriter ((s.pairUp b n).pair b) v)) (hm : Mapped s (s.pair b + n)) :
    ∃ t, exec i s = .next t ∧ t.pair b = s.pair b + n ∧ Stored8 (pairRegs b) (s.pair b + n) v s t := by
  rw [State.pair_pairUp] at h
  obtain ⟨t, hstore, hframe⟩ := State.storeReg_frame (s := s.pairUp b n) hm i.flagWriter v
  have hexec : exec i s = .next t := h.trans (finish_eq_next.mpr hstore)
  exact ⟨t, hexec, (State.pair_of_sameRegs hframe.regs b).trans (s.pair_pairUp b n),
    (StoreFrame.of_regs (.of_pairUp n) hframe).stored8 hi hexec⟩

theorem stored16_of_pairUp {n v : Word}
    (h : exec i s = finish ((s.pairUp b n).storePair i.flagWriter ((s.pairUp b n).pair b) v)) (hm : Mapped s (s.pair b + n))
    (hm' : Mapped s (s.pair b + n + 1#16)) :
    ∃ t, exec i s = .next t ∧ t.pair b = s.pair b + n ∧ Stored16 (pairRegs b) (s.pair b + n) v s t := by
  rw [State.pair_pairUp] at h
  obtain ⟨t, hstore, hframe⟩ := State.storePair_frame (s := s.pairUp b n) hm hm' i.flagWriter v
  have hexec : exec i s = .next t := h.trans (finish_eq_next.mpr hstore)
  exact ⟨t, hexec, (State.pair_of_sameRegs hframe.regs b).trans (s.pair_pairUp b n),
    (StoreFrame.of_regs (.of_pairUp n) hframe).stored16 hi hexec⟩

theorem stored8_then_pairDown {n : Word} {v : Byte}
    (h : exec i s = finish (s.storeReg i.flagWriter ea v >>= fun u => .ok (u.pairDown b n))) (hm : Mapped s ea) :
    ∃ t, exec i s = .next t ∧ t.pair b = s.pair b - n ∧ Stored8 (pairRegs b) ea v s t := by
  obtain ⟨u, hstore, hframe⟩ := State.storeReg_frame hm i.flagWriter v
  have hexec := exec_of_access hstore h
  have hpair : (u.pairDown b n).pair b = s.pair b - n := by
    rw [State.pair_pairDown, State.pair_of_sameRegs hframe.regs]
  exact ⟨_, hexec, hpair, (hframe.then_regs (.of_pairDown n)).stored8 hi hexec⟩

theorem stored16_then_pairDown {n v : Word}
    (h : exec i s = finish (s.storePair i.flagWriter ea v >>= fun u => .ok (u.pairDown b n))) (hm : Mapped s ea)
    (hm' : Mapped s (ea + 1#16)) :
    ∃ t, exec i s = .next t ∧ t.pair b = s.pair b - n ∧ Stored16 (pairRegs b) ea v s t := by
  obtain ⟨u, hstore, hframe⟩ := State.storePair_frame hm hm' i.flagWriter v
  have hexec := exec_of_access hstore h
  have hpair : (u.pairDown b n).pair b = s.pair b - n := by
    rw [State.pair_pairDown, State.pair_of_sameRegs hframe.regs]
  exact ⟨_, hexec, hpair, (hframe.then_regs (.of_pairDown n)).stored16 hi hexec⟩

end

end Sys2Proof.Machine

/-! # The obligations on loads and stores, and on the interrupt instructions -/

namespace Sys2Proof.Machine

/-- Settles O44: the three forms differ in their address only. -/
theorem byteLoads : Obligations.ByteLoads := by
  intro s a b c imm
  exact ⟨.of_putRegNz rfl rfl, .of_putRegNz rfl rfl, .of_putRegNz rfl rfl⟩

/-- Settles O45: as `byteLoads`, with two bytes. -/
theorem pairLoads : Obligations.PairLoads := by
  intro s a b c imm
  exact ⟨.of_putPairNz rfl rfl, .of_putPairNz rfl rfl, .of_putPairNz rfl rfl⟩

/-- Settles O46: the three forms differ in their address only. -/
theorem byteStores : Obligations.ByteStores := by
  intro s a b c imm
  exact ⟨stored8_of_storeReg rfl rfl, stored8_of_storeReg rfl rfl, stored8_of_storeReg rfl rfl⟩

/-- Settles O47: as `byteStores`, with two bytes. -/
theorem pairStores : Obligations.PairStores := by
  intro s a b c imm
  exact ⟨stored16_of_storePair rfl rfl, stored16_of_storePair rfl rfl, stored16_of_storePair rfl rfl⟩

/-- Settles O48: ldrab writes rA over the moved pointer, ldrsa moves the pointer that the write of rA has left. -/
theorem byteLoadsWithUpdate : Obligations.ByteLoadsWithUpdate := by
  intro s a b
  refine ⟨fun hm => ?ldrab, fun hm => ?ldrsa⟩
  case ldrab =>
    have hexec := exec_ldrab (a := a) hm
    refine ⟨_, hexec, State.reg_putRegNz_same _ _ _ _, fun hhi => ?high, fun hlo => ?low,
      fun hd => exec_flags_of_keepsFlags rfl hd hexec, ?frame⟩
    case high => exact (State.reg_setReg_ne _ hhi.symm _).trans (State.reg_setPair_hi _ _ _)
    case low => exact (State.reg_setReg_ne _ hlo.symm _).trans (State.reg_setPair_lo _ _ _)
    case frame => exact OnlyRegsAndFlags.loaded (.mono (by simp) ((OnlyRegsAndFlags.of_pairUp 1#16).trans (.of_setReg _ _)))
  case ldrsa =>
    have hexec := exec_ldrsa (a := a) hm
    refine ⟨_, hexec, fun hhi hlo => ⟨?loaded, ?pointer⟩, fun hhi => ?inHigh, fun hlo => ?inLow,
      fun hd => exec_flags_of_keepsFlags rfl hd hexec, ?frame⟩
    case loaded => exact (State.reg_setPair_ne _ hhi hlo _).trans (State.reg_putRegNz_same _ _ _ _)
    case pointer => rw [State.pair_pairDown, State.pair_putRegNz_ne _ _ hhi hlo, State.pair_withDevLog]
    case inHigh =>
      subst hhi
      rw [State.pair_pairDown, State.pair_putRegNz_hi, State.reg_withDevLog]
    case inLow =>
      subst hlo
      rw [State.pair_pairDown, State.pair_putRegNz_lo, State.reg_withDevLog]
    case frame => exact ((OnlyRegsAndFlags.of_setReg _ _).trans (.of_pairDown 1#16)).loaded

/-- Settles O49: strab reads rA once the pointer is moved, so a byte of the pointer is stored as moved. -/
theorem byteStoresWithUpdate : Obligations.ByteStoresWithUpdate := by
  intro s a b
  refine ⟨?strab, stored8_then_pairDown rfl rfl⟩
  rw [← s.reg_setPair b a (s.pair b + 1#16)]
  exact stored8_of_pairUp rfl rfl

/-- Settles O50: ldfab writes the flags past the policy; stfsa stores the flags byte, and then moves the pointer as it is set. -/
theorem flagsLoadAndStore : Obligations.FlagsLoadAndStore := by
  intro s b
  refine ⟨fun hm => ?ldfab, fun hm => ?stfsa⟩
  case ldfab =>
    have hexec := exec_ldfab hm
    exact ⟨_, hexec, State.pair_pairUp _ _ _, rfl, rfl, rfl, rfl, (OnlyRegsAndFlags.of_pairUp 1#16).loaded⟩
  case stfsa =>
    have hbyte := isFlagsByte_flagsByte s.cfg s.flags
    obtain ⟨u, hstore, hframe⟩ := State.storeReg_frame hm (.g2 .stfsa) (flagsByte s.cfg s.flags)
    obtain ⟨-, -, hcfg, -, -⟩ := hframe.control
    have hexec := exec_stfsa hstore hcfg
    have hpair : u.pair b = s.pair b := State.pair_of_sameRegs hframe.regs b
    by_cases hdir : s.cfg.stfsaDirection = .subtract
    · rw [if_pos hdir] at hexec ⊢
      exact ⟨_, hexec, by rw [State.pair_pairDown, hpair], _, hbyte, (hframe.then_regs (.of_pairDown 1#16)).stored8 rfl hexec⟩
    · rw [if_neg hdir] at hexec ⊢
      exact ⟨_, hexec, by rw [State.pair_pairUp, hpair], _, hbyte, (hframe.then_regs (.of_pairUp 1#16)).stored8 rfl hexec⟩

/-- Settles O51: ldpab writes the pair over the moved pointer, ldpsa moves the pointer that the write of the pair has left. -/
theorem pairLoadsWithUpdate : Obligations.PairLoadsWithUpdate := by
  intro s a b
  refine ⟨fun hm hm' => ?ldpab, fun hm hm' => ?ldpsa⟩
  case ldpab =>
    have hexec := exec_ldpab (a := a) hm hm'
    refine ⟨_, hexec, State.pair_setPair_same _ _ _, fun other => ?pointer,
      fun hd => exec_flags_of_keepsFlags rfl hd hexec, ?frame⟩
    case pointer => rw [State.pair_putPairNz, if_neg (Ne.symm other), State.pair_pairUp, State.pair_withDevLog]
    case frame => exact OnlyRegsAndFlags.loaded (.mono (by simp) ((OnlyRegsAndFlags.of_pairUp 2#16).trans (.of_setPair _ _)))
  case ldpsa =>
    have hexec := exec_ldpsa (a := a) hm hm'
    refine ⟨_, hexec, fun same => ?same, fun other => ⟨?loaded, ?pointer⟩,
      fun hd => exec_flags_of_keepsFlags rfl hd hexec, ?frame⟩
    case same =>
      rw [State.pair_eq_of_samePair _ same, State.pair_pairDown, State.pair_putPairNz, if_pos (Eq.symm same)]
    case loaded =>
      refine (State.pair_setPair _ _ _ _).trans ((if_neg other).trans ?_)
      exact State.pair_setPair_same _ _ _
    case pointer => rw [State.pair_pairDown, State.pair_putPairNz, if_neg (Ne.symm other), State.pair_withDevLog]
    case frame => exact ((OnlyRegsAndFlags.of_setPair _ _).trans (.of_pairDown 2#16)).loaded

/-- Settles O52: stpab reads rAp once the pointer is moved, so the pointer itself is stored as moved. -/
theorem pairStoresWithUpdate : Obligations.PairStoresWithUpdate := by
  intro s a b
  refine ⟨fun hm hm' => ?stpab, stored16_then_pairDown rfl rfl⟩
  obtain ⟨t, hexec, hpair, hstored⟩ : ∃ t, exec (.stpab a b) s = .next t ∧ t.pair b = s.pair b + 2#16 ∧
    Stored16 (pairRegs b) (s.pair b + 2#16) ((s.pairUp b 2#16).pair a) s t := stored16_of_pairUp rfl rfl hm hm'
  refine ⟨t, hexec, hpair, fun same => ?same, fun other => ?other⟩
  case same => rwa [show (s.pairUp b 2#16).pair a = s.pair b + 2#16 from (s.pair_setPair b a _).trans (if_pos same)] at hstored
  case other => rwa [show (s.pairUp b 2#16).pair a = s.pair a from (s.pair_setPair b a _).trans (if_neg other)] at hstored

/-- Settles O55: the rows of R31 are "-", so under the default table what the policy makes of the flags is the flags. -/
theorem enableDisableReturn : Obligations.EnableDisableReturn := by
  intro s
  refine ⟨⟨_, rfl, fun hd => ?eni⟩, ⟨_, rfl, fun hd => ?dii⟩, ?reti⟩
  case eni | dii => exact State.policyFlags_unchanged hd rfl _
  case reti =>
    have hexec : exec .reti s = .next s.returnFromInterrupt := rfl
    exact ⟨_, hexec, s.returnFromInterrupt_pc, rfl, rfl, fun hd => exec_flags_of_keepsFlags rfl hd hexec,
      s.sameRegsExcept_setPc s.ira, fun _ => rfl, rfl, rfl, rfl, rfl⟩

/-- Settles O56: swpira reads ira and the pair before it writes either. -/
theorem iraMoves : Obligations.IraMoves := by
  intro s a
  refine ⟨?swpira, .of_putPairNz rfl rfl⟩
  have hexec : exec (.swpira a) s =
    .next (({ s with ira := s.pair a }.setPair a s.ira).putFlags (.g2 .swpira) (nzW s.ira s.flags)) := rfl
  obtain ⟨hregs, -, -, -⟩ : OnlyRegsAndFlags (pairRegs a) s ((s.setPair a s.ira).setFlags s.flags) := .of_setPair _ _
  exact ⟨_, hexec, rfl, State.pair_setPair_same _ _ _, rfl, fun hd => exec_flags_of_keepsFlags rfl hd hexec, hregs,
    fun _ => rfl, rfl, rfl, rfl, rfl⟩

end Sys2Proof.Machine

/-! # The unsigned order in the flags of a comparison, and the obligation on the branches that read it -/

namespace Sys2Proof.Machine

/-! ### The conditions of R223 to R228 (45_group4_branch.md) where C is "no borrow" and Z is "equal" (10_state.md R29) -/

section

variable {w : Nat} (x y : BitVec w)

theorem carryClear_eq_lt : (decide (y.toNat ≤ x.toNat) == false) = decide (x.toNat < y.toNat) := by
  rw [beq_false, ← decide_not, decide_eq_decide]
  exact not_le

theorem carryClear_or_zero_eq_le :
    (decide (y.toNat ≤ x.toNat) == false || decide (x = y) == true) = decide (x.toNat ≤ y.toNat) := by
  rw [carryClear_eq_lt, beq_true, ← Bool.decide_or, decide_eq_decide, ← BitVec.toNat_inj]
  exact le_iff_lt_or_eq.symm

/-- bhi is the complement of bls in the gloss variant, as greater is of less or equal. -/
theorem carrySet_and_notZero_eq_gt :
    (decide (y.toNat ≤ x.toNat) == true && decide (x = y) == false) = decide (y.toNat < x.toNat) := by
  rw [beq_true, beq_false, ← decide_not, ← Bool.decide_and, decide_eq_decide, ← BitVec.toNat_inj, eq_comm]
  exact lt_iff_le_and_ne.symm

end

/-- Settles O59: cmp forces C and Z under every policy (`comparisons`), and each branch reads them as its condition says
(`branchConditions`); the order is what they say. -/
theorem branchesAfterCompare : Obligations.BranchesAfterCompare := by
  intro s a b imm gloss
  obtain ⟨-, ⟨t, hexec, hc, hz, -, ⟨-, -, ⟨-, -, hcfg, -⟩, -⟩⟩, -⟩ := comparisons s a b imm
  obtain ⟨-, -, bne, beq, bcc, bcs, unsigned, -⟩ := branchConditions t imm
  obtain ⟨bls, bhi⟩ := unsigned (hcfg ▸ gloss)
  simp only [hc, hz] at bne beq bcc bcs bls bhi
  rw [carryClear_eq_lt] at bcc
  rw [carryClear_or_zero_eq_le] at bls
  rw [carrySet_and_notZero_eq_gt] at bhi
  rw [beq_true] at bcs beq
  rw [beq_false, ← decide_not] at bne
  exact ⟨t, hexec, bcc, bcs, bls, bhi, beq, bne⟩

end Sys2Proof.Machine

/-! # Where an instruction is refused, and what an interrupt entry and its return do together -/

namespace Sys2Proof.Machine

/-! ### An access is refused only where nothing lies (20_memory.md R42) -/

/-- If the access x, made in s, is refused, then for an address at which nothing lies in s; the converse of `RefusedIfNone`, with no
address fixed. -/
def RefusedOnlyAtNone {α : Type} (s : State) (x : Except Refusal α) : Prop :=
  ∀ r, x = .error r → ∃ a, r = .unmapped a ∧ s.kindAt a = .none

namespace RefusedOnlyAtNone

variable {α β : Type} {s u : State}

theorem ok (v : α) : RefusedOnlyAtNone s (.ok v) := nofun

theorem bind {x : Except Refusal α} {k : α → Except Refusal β} (hx : RefusedOnlyAtNone s x)
    (hk : ∀ v, x = .ok v → RefusedOnlyAtNone s (k v)) : RefusedOnlyAtNone s (x >>= k) := by
  cases x with
  | ok v => exact hk v rfl
  | error e =>
    intro r h
    cases h
    exact hx e rfl

/-- An access leaves the memory map as it is, so what follows it may be judged by the map before. -/
theorem of_access {x : Except Refusal α} (hu : OnlyAccessed s u) (h : RefusedOnlyAtNone u x) : RefusedOnlyAtNone s x := by
  obtain ⟨m, l, rfl⟩ := hu
  exact h

/-- A pointer moves before the access. -/
theorem of_pairUp {b : Reg} {n : Word} {x : Except Refusal α} (h : RefusedOnlyAtNone (s.pairUp b n) x) :
    RefusedOnlyAtNone s x := h

theorem load8 (a : Word) : RefusedOnlyAtNone s (s.load8 a) := by
  intro r h
  rcases s.load8_cases a with ⟨_, e⟩ | ⟨_, e⟩ | ⟨hnone, e⟩ <;> cases e.symm.trans h
  exact ⟨a, rfl, hnone⟩

theorem store8 (a : Word) (v : Byte) : RefusedOnlyAtNone s (s.store8 a v) := by
  intro r h
  rcases s.store8_cases a v with ⟨_, e⟩ | ⟨_, e⟩ | ⟨_, e⟩ | ⟨hnone, e⟩ <;> cases e.symm.trans h
  exact ⟨a, rfl, hnone⟩

theorem load16 (a : Word) : RefusedOnlyAtNone s (s.load16 a) :=
  (load8 a).bind fun _ high => of_access (.of_load8 high) ((load8 _).bind fun _ _ => ok _)

theorem storeReg (w : FlagWriter) (ea : Word) (v : Byte) : RefusedOnlyAtNone s (s.storeReg w ea v) :=
  (store8 ea v).bind fun _ _ => ok _

theorem storePair (w : FlagWriter) (ea v : Word) : RefusedOnlyAtNone s (s.storePair w ea v) :=
  have both : RefusedOnlyAtNone s (s.store16 ea v) :=
    (store8 ea v.high).bind fun _ high => of_access (.of_store8 high) (store8 _ _)
  both.bind fun _ _ => ok _

end RefusedOnlyAtNone

/-- An instruction that is refused is refused with an access to an address at which nothing lies. -/
theorem exec_refused {i : Instr} {s : State} {r : Refusal} (h : exec i s = .refused r) :
    ∃ a, r = .unmapped a ∧ s.kindAt a = .none := by
  cases i with
  | addi | adci | addpbi | subpbi | cmpi | andi | orri | cpyi
  | add | adc | addpb | addp | sub | sbc | subpb | subp | cmp | cmpp | umul | smul
  | and | orr | xor | andp | orrp | xorp | inv | invp | neg | negp | abs | absp
  | lsl | lsr | asr | rol | ror | rolc | rorc | lslp | lsrp | asrp | rolp | rorp | rolcp | rorcp
  | lslpi | lsrpi | asrpi | rolpi | rorpi
  | cpy | cpyp | cpypi | cpyfrf | cpytof | swp | call | calli
  | eni | dii | reti | swpira | cpypira
  | bra | bnv | bne | beq | bcc | bcs | bls | bhi | bvc | bvs | bpl | bmi => cases h
  | ldr | ldrx | ldrxi | ldrsa =>
    exact RefusedOnlyAtNone.bind (.load8 _) (fun _ _ => .ok _) r (finish_eq_refused.mp h)
  | ldrab | ldfab =>
    exact RefusedOnlyAtNone.of_pairUp (.bind (.load8 _) fun _ _ => .ok _) r (finish_eq_refused.mp h)
  | ldp | ldpx | ldpxi | ldpsa =>
    exact RefusedOnlyAtNone.bind (.load16 _) (fun _ _ => .ok _) r (finish_eq_refused.mp h)
  | ldpab =>
    exact RefusedOnlyAtNone.of_pairUp (.bind (.load16 _) fun _ _ => .ok _) r (finish_eq_refused.mp h)
  | str | strx | strxi => exact RefusedOnlyAtNone.storeReg _ _ _ r (finish_eq_refused.mp h)
  | strab => exact RefusedOnlyAtNone.of_pairUp (.storeReg _ _ _) r (finish_eq_refused.mp h)
  | strsa => exact RefusedOnlyAtNone.bind (.storeReg _ _ _) (fun _ _ => .ok _) r (finish_eq_refused.mp h)
  | stfsa =>
    refine RefusedOnlyAtNone.bind (.storeReg _ _ _) (fun u _ => ?_) r (finish_eq_refused.mp h)
    split <;> exact .ok _
  | stp | stpx | stpxi => exact RefusedOnlyAtNone.storePair _ _ _ r (finish_eq_refused.mp h)
  | stpab => exact RefusedOnlyAtNone.of_pairUp (.storePair _ _ _) r (finish_eq_refused.mp h)
  | stpsa => exact RefusedOnlyAtNone.bind (.storePair _ _ _) (fun _ _ => .ok _) r (finish_eq_refused.mp h)

/-! ### Interrupt entry (60_exceptions.md R306, R307) and the return from it (R310) -/

section

variable {s : State}

/-- R306: with ie = 1 and irq = 1 the step is the entry. -/
theorem step_of_interrupt (hie : s.ie = true) (hirq : s.irq = true) : step s = .next s.sampled.takeInterrupt :=
  step_eq_next.mpr (.inl ⟨by rw [State.interruptTaken, hie, hirq, Bool.and_self], rfl⟩)

/-- The row "interrupt entry" of R31 is "-". -/
theorem State.takeInterrupt_flags_default (hd : DefaultFlags s) : s.takeInterrupt.flags = s.flags :=
  State.policyFlags_unchanged hd rfl _

/-- Writing back the pc after another was written over it changes nothing. -/
theorem State.setPc_setPc_pc (s : State) (t : Word) : (s.setPc t).setPc s.pc = s :=
  (s.setPair_setPair pcPair t s.pc).trans (s.setPair_pair pcPair)

/-- The return gives back the pc and the ie that the entry has overwritten; ira keeps the pc. -/
theorem State.returnFromInterrupt_takeInterrupt (hie : s.ie = true) :
    s.takeInterrupt.returnFromInterrupt =
      { s with ira := s.pc, flags := s.takeInterrupt.returnFromInterrupt.flags } := by
  calc s.takeInterrupt.returnFromInterrupt
    _ = { (s.setPc s.cfg.intVector).setPc s.pc with
          ie := true, ira := s.pc, flags := s.takeInterrupt.returnFromInterrupt.flags } := rfl
    _ = { s with ira := s.pc, flags := s.takeInterrupt.returnFromInterrupt.flags } := by
      rw [State.setPc_setPc_pc, ← hie]

end

end Sys2Proof.Machine

/-! # The obligations on interrupts and refusals -/

namespace Sys2Proof.Machine

/-- Settles O9: the step is the entry, which writes no register but the two of the pc. -/
theorem interruptEntryIsTheWholeStep : Obligations.InterruptEntryIsTheWholeStep := by
  intro s hie hirq
  exact ⟨_, step_of_interrupt hie hirq, rfl, rfl, s.sampled.takeInterrupt_pc, s.sameRegsExcept_setPc s.cfg.intVector,
    State.takeInterrupt_flags_default (s := s.sampled), fun _ => rfl, rfl, rfl, rfl, rfl⟩

/-- Settles O19: the boundary uses up the level and the number; the entry, the fetch and every instruction leave the rest as they are. -/
theorem oneRequestLevelPerStep : Obligations.OneRequestLevelPerStep := by
  intro s t h
  rcases step_eq_next.mp h with ⟨_, rfl⟩ | ⟨_, i, u, hfetch, hexec⟩
  · exact ⟨rfl, rfl⟩
  · obtain ⟨l, rfl⟩ := s.sampled.fetch_ok hfetch
    exact ⟨(exec_frame hexec).irqs, (exec_frame hexec).draw⟩

/-- Settles O25: there is no fault to raise (R300), so where nothing can be refused the instruction goes on. -/
theorem refusalOnlyWhereNothingIsMapped : Obligations.RefusalOnlyWhereNothingIsMapped := by
  intro i s
  refine ⟨fun r => exec_refused, fun mapped => ?_⟩
  cases h : exec i s with
  | next t => exact ⟨t, rfl⟩
  | fault e => cases e
  | refused r =>
    obtain ⟨a, _, hnone⟩ := exec_refused h
    exact absurd hnone (mapped a)

/-- Settles O57: the reti undoes the entry but for ira and the flags, whose rows of R31 are both "-". -/
theorem entryThenReturnResumes : Obligations.EntryThenReturnResumes := by
  intro s t hie hirq h
  cases (step_of_interrupt hie hirq).symm.trans h
  have hexec : exec .reti s.sampled.takeInterrupt = .next s.sampled.takeInterrupt.returnFromInterrupt := rfl
  have resumed := State.returnFromInterrupt_takeInterrupt (s := s.sampled) hie
  refine ⟨_, hexec.trans (congrArg _ resumed), fun hd => ?_⟩
  have entered : DefaultFlags s.sampled.takeInterrupt := hd
  exact (exec_flags_of_keepsFlags rfl entered hexec).trans (State.takeInterrupt_flags_default (s := s.sampled) hd)

end Sys2Proof.Machine

/-! # Reset (70_reset_and_hazards.md R340), and the end of a run (R352) -/

namespace Sys2Proof.Machine

/-! ### The pc at reset -/

@[simp] theorem State.resetWith_pc (c : Config) : (State.resetWith c).pc = c.resetPc := Word.ofBytes_high_low c.resetPc

/-! ### A branch to itself -/

section

variable {s : State}

/-- R24, R220: with BRANCH_SCALE 1 the offset -2 undoes the advance of the pc past a short instruction. -/
theorem add_two_add_sext16_neg_two (pc : Word) : pc + 2#16 + 1 * sext16 0xFE = pc := by
  have offset : sext16 0xFE = -2#16 := by decide
  rw [offset, one_mul]
  exact add_neg_cancel_right pc 2#16

/-- A branch taken from another address back to the pc leaves everything as it was, but for the flags by policy. -/
theorem State.branch_setPc_of_target {t : Word} {imm : Byte} (ht : t + s.cfg.branchScale * sext16 imm = s.pc) (op : Op4) :
    (s.setPc t).branch op true imm = s.settleFlags (.g4 op) := by
  rw [State.branch, if_pos rfl, State.pc_setPc, State.setPc_cfg, ht, State.setPc_setPc_pc]

/-- The bra -2 on the state that its own fetch leaves. -/
theorem exec_bra_neg_two (hscale : s.cfg.branchScale = 1) :
    exec (.bra 0xFE) (s.setPc (s.pc + 2#16)) = .next (s.settleFlags (.g4 .bra)) := by
  have target : s.pc + 2#16 + s.cfg.branchScale * sext16 0xFE = s.pc := by
    rw [hscale, add_two_add_sext16_neg_two]
  exact congrArg _ (State.branch_setPc_of_target target .bra)

/-! ### The end of a run -/

theorem State.irq_of_all_low (h : ∀ b ∈ s.irqs, b = false) : s.irq = false := by
  unfold State.irq
  cases hirqs : s.irqs with
  | nil => rfl
  | cons b later => exact h b (by simp [hirqs])

theorem RunEnded.interruptTaken (h : RunEnded s) : s.interruptTaken = false := by
  obtain ⟨_, _, hie | hlow⟩ := h
  · exact State.interruptTaken_of_ie hie
  · rw [State.interruptTaken, State.irq_of_all_low hlow, Bool.and_false]

/-- The end of a run depends neither on the flags nor on the level that the boundary uses up. -/
theorem RunEnded.sampled_setFlags (h : RunEnded s) (f : Flags) : RunEnded (s.sampled.setFlags f) := by
  obtain ⟨hinstr, hscale, hquiet⟩ := h
  exact ⟨hinstr, hscale, hquiet.imp_right fun hlow b hb => hlow b (List.mem_of_mem_tail hb)⟩

theorem RunEnded.step_eq (h : RunEnded s) : step s = .next (s.sampled.settleFlags (.g4 .bra)) := by
  have not_taken := h.interruptTaken
  obtain ⟨hinstr, hscale, _⟩ := h
  exact (stepRunsTheDecodedInstruction s _ not_taken hinstr).trans (exec_bra_neg_two (s := s.sampled) hscale)

end

end Sys2Proof.Machine

/-! # The obligations on reset and the end of a run -/

namespace Sys2Proof.Machine

/-- Settles O14: the bra -2 comes back to its own address, and its row of R31 is "-". -/
theorem endedRunStaysEnded : Obligations.EndedRunStaysEnded := by
  intro s hended
  have flags_default (hd : DefaultFlags s.sampled) : s.sampled.policyFlags (.g4 .bra) s.flags = s.flags :=
    State.policyFlags_unchanged hd rfl s.flags
  exact ⟨s.sampled.policyFlags (.g4 .bra) s.flags, flags_default, hended.step_eq, hended.sampled_setFlags _⟩

/-- Settles O12: ie = 0 keeps every request out, so the step is that of the instruction at the pc, which is RESET_PC. -/
theorem firstStepAfterReset : Obligations.FirstStepAfterReset := by
  intro s i ⟨hpc, hie⟩ hinstr
  rw [← hpc]
  exact stepRunsTheDecodedInstruction s i (State.interruptTaken_of_ie hie) hinstr

/-- Settles O13: the registers of the reset state list the two bytes of RESET_PC last. -/
theorem resetSetsPcAndIe : Obligations.ResetSetsPcAndIe :=
  fun c => ⟨rfl, rfl, State.resetWith_pc c, rfl, rfl⟩

end Sys2Proof.Machine
